-- ==== Sys2Proof/Word.lean ====
section
/-! DEFINITION. The plain words of the block: bytes, the ports' widths, and the 8-byte Frame
(spec/00_scope.md R11, R14; spec/10_state.md R21, R32; spec/30_encoding.md R80). -/

namespace Sys2Proof

/-- A byte: bit 0 is its least significant bit (00_scope.md R14). -/
abbrev Byte := BitVec 8

/-- A torque inside the block: `TW = 16` bits, two's complement (00_scope.md R11). -/
abbrev Torque := BitVec 16

/-- The rolling counter: a 4-bit unsigned value (10_state.md R21). -/
abbrev Counter := BitVec 4

/-- The intent word `iw`: VALID in bit 3, CODE in bits 2 to 0 (30_encoding.md R80). -/
abbrev IntentWord := BitVec 4

/-- A Frame: always exactly 8 bytes, byte 0 first (20_memory.md R51, R54). -/
structure Frame where
  b0 : Byte
  b1 : Byte
  b2 : Byte
  b3 : Byte
  b4 : Byte
  b5 : Byte
  b6 : Byte
  b7 : Byte
  deriving DecidableEq, Repr, Inhabited

end Sys2Proof
end

