-- ==== Sys2Proof/Config.lean ====
section
/-! DEFINITION. The configuration inputs of the block (spec/00_scope.md R5 to R12, spec/10_state.md
R29), and the FREE VALUES: constants without a body, of which nothing can be proved. -/

namespace Sys2Proof

/-- What a tick with no operator intent does (00_scope.md R9); the spec gives no default. -/
inductive HoldPolicy
  /-- keep the previous torque; strap bit 0 -/
  | latchLastValue
  /-- torque 0; strap bit 1 -/
  | neutralOnNoInput
  deriving DecidableEq, Repr, Inhabited

/-- The configuration as the host drives it on the `cfg_*` inputs, legal or not (10_state.md R29). -/
structure CfgPins where
  /-- the bus index, `BW = 8` bits unsigned (00_scope.md R5) -/
  busIndex : BitVec 8
  /-- the torque one Left or Right commands, `TW = 16` bits signed (00_scope.md R6) -/
  steerStep : Torque
  /-- the nominal period in milliseconds, timing only (00_scope.md R8) -/
  periodMs : Int
  /-- the 1-bit strap `cfg.holdPolicy` (10_state.md R29); `CfgPins.holdPolicy` is the policy it codes -/
  holdPolicyBit : BitVec 1
  /-- the count of consecutive failed sends that stops the block (00_scope.md R10) -/
  txFailLimit : Nat
  /-- `CLK_HZ`, the frequency of `clk` (00_scope.md R12) -/
  clkHz : Nat
  /-- `PERIOD_CYCLES`, the period of the reference timer in clock cycles (00_scope.md R12) -/
  periodCycles : Nat
  deriving DecidableEq, Repr

/-- The input ports of one event: what the environment presents on `rst`, `iw`, `in_err` and
`tx_err` (10_state.md R38). -/
structure InPorts where
  /-- reset is asserted (70_reset_and_hazards.md R210) -/
  rst : Bool
  /-- the intent word (30_encoding.md R80) -/
  iw : IntentWord
  /-- the input collaborator reports an InputDeviceError (60_exceptions.md R178) -/
  inErr : Bool
  /-- the transport's answer, should this event send: false is Ok, true is Err -/
  txErr : Bool
  deriving DecidableEq, Repr, Inhabited

/-- FREE (log 2): the inputs of the n-th event that no schedule names. The spec puts them under no
law (93_implementation_defined.md U13). -/
opaque Config.freeInputs : Nat → InPorts

/-- FREE (log 9): which of the 65535 legal values `steerStep` has at reset (00_scope.md R6, OPEN). -/
opaque Config.freeSteerStepIndex : Fin 65535

/-- FREE (log 9): the hold policy's strap bit at reset (00_scope.md R9, OPEN). -/
opaque Config.freeHoldPolicyBit : BitVec 1

/-- FREE (log 9): the failure limit at reset, less one (00_scope.md R10, OPEN, positive). -/
opaque Config.freeFailLimitPred : Nat

/-- FREE (log 9): `CLK_HZ` at reset, less the 50 Hz that one cycle a period needs
(00_scope.md R12, OPEN). -/
opaque Config.freeClkHzAbove50 : Nat

end Sys2Proof
end

