-- ==== Sys2Proof/Syntax.lean ====
section
/-! DEFINITION. The seven operations of spec/opcode_table.json (spec/30_encoding.md R85). -/

namespace Sys2Proof

/-- One constructor per row of the opcode table. Bits that a row ignores are kept as operands, so
that an encoding drops no bit. -/
inductive Instr
  /-- `T.NONE`, `0xxx`: no intent; `code` are the ignored CODE bits (41_control_loop.md R140) -/
  | tNone (code : BitVec 3)
  /-- `T.NEUTRAL`, `1000` (41_control_loop.md R135) -/
  | tNeutral
  /-- `T.LEFT`, `1001` (41_control_loop.md R136) -/
  | tLeft
  /-- `T.RIGHT`, `1010` (41_control_loop.md R137) -/
  | tRight
  /-- `T.QUIT`, `1011` (41_control_loop.md R141) -/
  | tQuit
  /-- `T.RSVD`, `11xx`: a reserved code; `low` are its ignored bits (41_control_loop.md R139) -/
  | tRsvd (low : BitVec 2)
  /-- `ENCODE`: three operands by value (30_encoding.md R86, 40_frame_encoder.md R100) -/
  | encode (torque : Int) (counter : Nat) (requestActive : Bool)
  deriving DecidableEq, Repr

end Sys2Proof
end

