-- ==== Sys2Proof/WellFormed.lean ====
section
/-! DEFINITION. The checks: which operations have a word of their own, and which configurations are
legal (spec/40_frame_encoder.md R115; spec/00_scope.md R6, R8, R10, R12). -/

namespace Sys2Proof

/-- An operation that an encoding names exactly. Every `ENCODE` has a meaning; outside the intended
domain of 40_frame_encoder.md R115 its frame is that of another torque or counter. -/
def Instr.wf : Instr → Bool
  | .tNone _ => true
  | .tNeutral => true
  | .tLeft => true
  | .tRight => true
  | .tQuit => true
  | .tRsvd _ => true
  | .encode torque counter _ => decide (-1023 ≤ torque ∧ torque ≤ 1023 ∧ counter ≤ 15)

/-- The excluded step -32768 is the one whose negation does not fit (00_scope.md R6, U6). -/
def CfgPins.steerStepOk (c : CfgPins) : Bool := decide (c.steerStep ≠ 0x8000#16)

/-- A period is positive (00_scope.md R8, U7). -/
def CfgPins.periodMsOk (c : CfgPins) : Bool := decide (0 < c.periodMs)

/-- The failure limit is positive (00_scope.md R10, U10). -/
def CfgPins.txFailLimitOk (c : CfgPins) : Bool := decide (0 < c.txFailLimit)

/-- A period has at least one cycle (00_scope.md R12, U7). -/
def CfgPins.periodCyclesOk (c : CfgPins) : Bool := decide (0 < c.periodCycles)

/-- `PERIOD_CYCLES = periodMs × CLK_HZ / 1000` (00_scope.md R12), rounded down (log 13). -/
def CfgPins.clockOk (c : CfgPins) : Bool :=
  decide ((c.periodCycles : Int) = c.periodMs * c.clkHz / 1000)

/-- The legal configurations (93_implementation_defined.md U6, U7, U10 refuse the others; log 10). -/
def CfgPins.wf (c : CfgPins) : Bool :=
  c.steerStepOk && c.periodMsOk && c.txFailLimitOk && c.periodCyclesOk && c.clockOk

/-- A legal configuration: the pins with the check that they pass. -/
structure Config extends CfgPins where
  legal : toCfgPins.wf = true := by decide
  deriving DecidableEq, Repr

end Sys2Proof
end

