-- ==== Sys2Proof/Decode.lean ====
section
/-! DEFINITION. The encodings of the block, read and written: the intent word IW, the FRAME, whose
decoding gives back the operands of `ENCODE` (spec/30_encoding.md R77, R78), and the one coded strap,
`cfg.holdPolicy` (spec/10_state.md R29). -/

namespace Sys2Proof

/-- The bit that codes a hold policy: `latchLastValue = 0`, `neutralOnNoInput = 1` (10_state.md R29,
the spec's decision D3). -/
def HoldPolicy.bit : HoldPolicy → BitVec 1
  | .latchLastValue => 0#1
  | .neutralOnNoInput => 1#1

/-- The hold policy that the strap bit codes (10_state.md R29, D3). -/
def CfgPins.holdPolicy (c : CfgPins) : HoldPolicy :=
  if c.holdPolicyBit = 0#1 then .latchLastValue else .neutralOnNoInput

/-- The sum of bytes 0 to 6, in the integers (40_frame_encoder.md R109, R111). -/
def Frame.sum7 (f : Frame) : Nat :=
  f.b0.toNat + f.b1.toNat + f.b2.toNat + f.b3.toNat + f.b4.toNat + f.b5.toNat + f.b6.toNat

/-- The sum of all 8 bytes, in the integers (40_frame_encoder.md R113). -/
def Frame.sum8 (f : Frame) : Nat :=
  f.sum7 + f.b7.toNat

/-- Why bytes are no operation's encoding. -/
inductive DecodeError
  /-- neither the one byte of an IW nor the 8 bytes of a FRAME (30_encoding.md R79) -/
  | badLength
  /-- a byte that no 4-bit intent word fits (30_encoding.md R79, log 7) -/
  | intentWordTooWide
  /-- a reserved bit of bytes 0, 1, 2, 4, 5 or 6 is not 0 (30_encoding.md R76) -/
  | reservedBitSet
  /-- MAG[10] is set, a magnitude above 1023 (30_encoding.md R74) -/
  | magnitudeTooLarge
  /-- SIGN = 1 with MAG = 0 (30_encoding.md R73) -/
  | negativeZero
  /-- the 8 bytes do not sum to 0 modulo 256 (30_encoding.md R75) -/
  | badChecksum
  deriving DecidableEq, Repr

/-- The operation an intent word selects; all 16 words select one (30_encoding.md R83, R85). -/
def decodeIntentWord (iw : IntentWord) : Instr :=
  if iw.getLsbD 3 = false then .tNone (iw.extractLsb' 0 3)
  else if iw.getLsbD 2 = true then .tRsvd (iw.extractLsb' 0 2)
  else if iw.extractLsb' 0 2 = 0b00#2 then .tNeutral
  else if iw.extractLsb' 0 2 = 0b01#2 then .tLeft
  else if iw.extractLsb' 0 2 = 0b10#2 then .tRight
  else .tQuit

/-- The counter a frame carries (30_encoding.md R77). -/
def Frame.counter (f : Frame) : Nat := (f.b0 >>> 4).toNat

/-- The request flag a frame carries (30_encoding.md R77). -/
def Frame.request (f : Frame) : Bool := f.b0.getLsbD 0

/-- The sign a frame carries (30_encoding.md R77). -/
def Frame.sign (f : Frame) : Bool := f.b2.getLsbD 3

/-- The magnitude a frame carries, big-endian across bytes 2 and 3 (20_memory.md R52). -/
def Frame.magnitude (f : Frame) : Nat := (f.b2 &&& 0x07#8).toNat * 256 + f.b3.toNat

/-- The torque a frame carries, from sign and magnitude (30_encoding.md R77). -/
def Frame.torque (f : Frame) : Int := if f.sign then -(f.magnitude : Int) else f.magnitude

/-- What keeps 8 bytes from being an `ENCODE` result, condition by condition (30_encoding.md R78). -/
def Frame.defect (f : Frame) : Option DecodeError :=
  if f.b0 &&& 0x0E#8 ≠ 0#8 ∨ f.b1 ≠ 0#8 ∨ f.b2 &&& 0xF0#8 ≠ 0#8 ∨ f.b4 ≠ 0#8 ∨ f.b5 ≠ 0#8 ∨
      f.b6 ≠ 0#8 then some .reservedBitSet
  else if f.b2 &&& 0x04#8 ≠ 0#8 then some .magnitudeTooLarge
  else if f.b2 &&& 0x08#8 ≠ 0#8 ∧ f.b2 &&& 0x03#8 = 0#8 ∧ f.b3 = 0#8 then some .negativeZero
  else if f.sum8 % 256 ≠ 0 then some .badChecksum
  else none

/-- The operation a FRAME stands for: `ENCODE` with the operands the frame carries, or the name of
what is wrong with it (30_encoding.md R77, R78; log 6). -/
def decodeFrame (f : Frame) : Except DecodeError Instr :=
  match f.defect with
  | some e => .error e
  | none => .ok (.encode f.torque f.counter f.request)

/-- The decoder, total on any bytes: one byte is an intent word (log 7), 8 bytes are a FRAME. -/
def decode : List Byte → Except DecodeError Instr
  | [b] => if b.toNat < 16 then .ok (decodeIntentWord (b.setWidth 4)) else .error .intentWordTooWide
  | [b0, b1, b2, b3, b4, b5, b6, b7] => decodeFrame ⟨b0, b1, b2, b3, b4, b5, b6, b7⟩
  | _ => .error .badLength

/-- The eight bytes of a frame, byte 0 first (20_memory.md R51). -/
def Frame.toList (f : Frame) : List Byte := [f.b0, f.b1, f.b2, f.b3, f.b4, f.b5, f.b6, f.b7]

/-- A frame on the 64-bit port: byte `i` on bits `8i+7` to `8i` (20_memory.md R53). -/
def Frame.toPort (f : Frame) : BitVec 64 :=
  f.b7 ++ f.b6 ++ f.b5 ++ f.b4 ++ f.b3 ++ f.b2 ++ f.b1 ++ f.b0

/-- The frame whose port value is given (20_memory.md R53). -/
def Frame.ofPort (w : BitVec 64) : Frame where
  b0 := w.extractLsb' 0 8
  b1 := w.extractLsb' 8 8
  b2 := w.extractLsb' 16 8
  b3 := w.extractLsb' 24 8
  b4 := w.extractLsb' 32 8
  b5 := w.extractLsb' 40 8
  b6 := w.extractLsb' 48 8
  b7 := w.extractLsb' 56 8

/-- The FRAME layout of the table of 30_encoding.md R70, bit field by bit field, with the CHK of
R75 as the byte that brings the sum to 0. -/
def frameLayout (cnt : BitVec 4) (req sign : Bool) (mag : BitVec 11) : Frame :=
  let byte0 : Byte := cnt ++ 0#3 ++ BitVec.ofBool req
  let byte2 : Byte := 0#4 ++ BitVec.ofBool sign ++ mag.extractLsb' 8 3
  let byte3 : Byte := mag.extractLsb' 0 8
  ⟨byte0, 0#8, byte2, byte3, 0#8, 0#8, 0#8, 0#8 - (byte0 + byte2 + byte3)⟩

/-- The 4-bit word of a tick operation (30_encoding.md R85); `ENCODE` has none. -/
def encodeIntentWord : Instr → Option IntentWord
  | .tNone code => some (0#1 ++ code)
  | .tNeutral => some 0b1000#4
  | .tLeft => some 0b1001#4
  | .tRight => some 0b1010#4
  | .tQuit => some 0b1011#4
  | .tRsvd low => some (0b11#2 ++ low)
  | .encode _ _ _ => none

/-- The words of a well-formed operation, from the encoding tables of 30_encoding.md R70 and R85.
(The machine's `ENCODE` follows the algorithm of 40_frame_encoder.md instead; that the two agree is
a statement.) -/
def encode : Instr → List Byte
  | .encode torque counter requestActive =>
    (frameLayout (BitVec.ofNat 4 counter) requestActive (decide (torque < 0))
      (BitVec.ofNat 11 torque.natAbs)).toList
  | i => match encodeIntentWord i with
    | some iw => [iw.setWidth 8]
    | none => []

/-- The bytes of a table word: `n` bytes, the low byte first (log 7 for the intent word). -/
def tableBytes : Nat → Nat → List Byte
  | 0, _ => []
  | n + 1, w => BitVec.ofNat 8 w :: tableBytes n (w / 256)

/-- The instruction the decoder reads from an instruction whose bits are `w`: up to 8 bits are an
intent word, more are a FRAME, whose bits above `nbits` are 0. -/
def decodeTableWord (nbits w : Nat) : Option Instr :=
  let n := if nbits ≤ 8 then 1 else 8
  if w < 256 ^ n then (decode (tableBytes n w)).toOption else none

end Sys2Proof
end

