-- ==== Sys2Proof/Machine/State.lean ====
section
/-! DEFINITION. The state of the block: its registers, its ports, its configuration inputs, the
observation, and what the environment will do (spec/10_state.md; INVENTORY.md lists each). -/

namespace Sys2Proof.Machine

/-- The loop state `run` (10_state.md R23). -/
inductive RunState
  /-- terminal until reset (coded 0) -/
  | stopped
  /-- ticks act (coded 1) -/
  | running
  deriving DecidableEq, Repr

/-- Why the block stopped (10_state.md R24). -/
inductive Cause
  /-- not stopped (0b00) -/
  | none
  /-- the Quit intent, the clean stop (0b01) -/
  | quit
  /-- TransportError at the failure limit (0b10) -/
  | txFatal
  /-- InputDeviceError (0b11) -/
  | inFatal
  deriving DecidableEq, Repr

/-- What the transport answers to a `Send` (41_control_loop.md R154). -/
inductive TxAnswer
  | ok
  | err
  deriving DecidableEq, Repr

/-- One `Send` event: identifier, frame, bus index, result (10_state.md R35). -/
structure SendEvent where
  identifier : BitVec 11
  frame : Frame
  busIndex : BitVec 8
  result : TxAnswer
  deriving DecidableEq, Repr

/-- What the environment does to the block in one step (70_reset_and_hazards.md R216; log 1). -/
inductive Stimulus
  /-- a tick happens (60_exceptions.md R190, the normative level), with these inputs -/
  | tick (p : InPorts)
  /-- an edge of `clk` with these inputs on the ports (60_exceptions.md R192, the reference timer) -/
  | edge (p : InPorts)
  /-- the host drives a configuration on the `cfg_*` inputs (10_state.md R29) -/
  | straps (c : Config)
  /-- FrameEncoder is called by itself, with the operands this FRAME carries (log 4) -/
  | call (f : Frame)
  deriving DecidableEq, Repr

/-- The whole state. -/
structure State where
  /-- the loop state (10_state.md R23) -/
  run : RunState
  /-- why the block stopped (10_state.md R24) -/
  cause : Cause
  /-- the rolling counter (10_state.md R21) -/
  cnt : Counter
  /-- the current torque, before clamping (10_state.md R22) -/
  trq : Torque
  /-- consecutive failed sends (10_state.md R25, log 18) -/
  failc : Nat
  /-- the phase of the reference timer (10_state.md R26) -/
  ptimer : Nat
  /-- the configuration inputs (10_state.md R29, log 8) -/
  cfg : Config
  /-- port `rst` (10_state.md R38) -/
  rst : Bool
  /-- port `iw` (10_state.md R38) -/
  iw : IntentWord
  /-- port `in_err` (10_state.md R38) -/
  inErr : Bool
  /-- port `tx_err` (10_state.md R38) -/
  txErr : Bool
  /-- ports `tx_valid` and `tx_data`: the frame handed over in the step just done (log 16) -/
  tx : Option Frame
  /-- the MODEL's: FrameEncoder's output lines in the step just done (log 5) -/
  encOut : Option Frame
  /-- the observation: the Send events since reset, oldest first (10_state.md R35, log 17) -/
  trace : List SendEvent
  /-- the MODEL's: what the environment will do, in order (log 1) -/
  pending : List Stimulus
  /-- the MODEL's: how many free inputs have been drawn (log 2) -/
  freeStep : Nat
  deriving DecidableEq, Repr

/-- The configuration at reset: the defaults of 00_scope.md R5 and R8, and free legal values for
the OPEN parameters (R6, R9, R10, R12; log 9). -/
def openPins : CfgPins where
  busIndex := 0#8
  steerStep := BitVec.ofInt 16 ((Config.freeSteerStepIndex.val : Int) - 32767)
  periodMs := 20
  holdPolicyBit := Config.freeHoldPolicyBit
  txFailLimit := Config.freeFailLimitPred + 1
  clkHz := 50 + Config.freeClkHzAbove50
  periodCycles := 20 * (50 + Config.freeClkHzAbove50) / 1000

/-- Every value of the free index is a legal step: none is -32768 (00_scope.md R6). -/
theorem openPins_steerStep_ne (k : Fin 65535) :
    BitVec.ofInt 16 ((k.val : Int) - 32767) ≠ 0x8000#16 := by
  intro h
  have h' := congrArg BitVec.toInt h
  have hk := k.isLt
  rw [BitVec.toInt_ofInt, Int.bmod_eq_of_le (by omega) (by omega)] at h'
  simp only [BitVec.reduceToInt] at h'
  omega

/-- The free configuration is a legal one. -/
theorem openPins_wf : openPins.wf = true := by
  have h1 : openPins.steerStepOk = true := decide_eq_true (openPins_steerStep_ne _)
  have h2 : openPins.periodMsOk = true := rfl
  have h3 : openPins.txFailLimitOk = true := decide_eq_true (Nat.succ_pos _)
  have h4 : openPins.periodCyclesOk = true := decide_eq_true (by simp only [openPins]; omega)
  have h5 : openPins.clockOk = true := decide_eq_true (by simp only [openPins]; omega)
  rw [CfgPins.wf, h1, h2, h3, h4, h5]
  rfl

/-- The machine right after reset (10_state.md R37, 70_reset_and_hazards.md R210). -/
def State.reset : State where
  run := .running
  cause := .none
  cnt := 0#4
  trq := 0#16
  failc := 0
  ptimer := 0
  cfg := { openPins with legal := openPins_wf }
  rst := false
  iw := 0#4
  inErr := false
  txErr := false
  tx := none
  encOut := none
  trace := []
  pending := []
  freeStep := 0

/-- No step of the block ends in a fault: `ENCODE` is total, every intent word selects an operation,
and an error is a transition to Stopped (30_encoding.md R83, 60_exceptions.md R171, R180; log 25). -/
inductive Fault
  deriving DecidableEq, Repr

/-- Why a step has no meaning. -/
inductive Refusal
  /-- raised by a refused arm of `exec` (none is left): the instruction is not modelled. Safe: the
  model stops where the hardware goes on. -/
  | notModelled (mnemonic : String)
  /-- raised by a direct call of FrameEncoder with 8 bytes that no `ENCODE` produces, so that no
  operands stand behind them (30_encoding.md R78; log 6). Safe: nothing is proved of such a call. -/
  | notAnEncodeResult (e : DecodeError)
  /-- raised by a configuration that changes between the release of reset and Stopped
  (93_implementation_defined.md U8 refuses such a run; log 11). Safe: nothing is proved of it. -/
  | configChangedDuringRun
  deriving DecidableEq, Repr

end Sys2Proof.Machine
end

