-- ==== Sys2Proof/Machine/Flags.lean ====
section
/-! DEFINITION. The flags: the request flag, computed anew in every emitting tick and never stored,
and the sign inside `ENCODE` (spec/10_state.md R28). -/

namespace Sys2Proof.Machine

/-- Step 3 of a tick: the request flag is set iff the torque is not zero, before clamping
(41_control_loop.md R144). -/
def requestFlag (t : Torque) : Bool := decide (t ≠ 0#16)

/-- The sign of a clamped torque: 0 if at least 0, else 1 (40_frame_encoder.md R102). -/
def signFlag (tc : Int) : Bool := decide (tc < 0)

end Sys2Proof.Machine
end

