-- ==== Sys2Proof/Machine/FrameEncoder.lean ====
section
/-! DEFINITION. The frame encoder: the algorithm of spec/40_frame_encoder.md R100, one definition
per step (R101 to R109), over the mathematical integers. -/

namespace Sys2Proof.Machine

/-- `steerMax`, the clamp bound: a constant (00_scope.md R7, R13). -/
def steerMax : Int := 1023

/-- Step 1: clamp to [-1023, 1023] (40_frame_encoder.md R101). -/
def clampTorque (torque : Int) : Int := max (-steerMax) (min steerMax torque)

/-- Step 2: the magnitude of the clamped torque (40_frame_encoder.md R102). -/
def magnitudeOf (tc : Int) : Nat := tc.natAbs

/-- Step 3, byte 0: the counter's low four bits high, the request flag low
(40_frame_encoder.md R104). -/
def byte0 (counter : Nat) (requestActive : Bool) : Byte :=
  BitVec.ofNat 8 (((counter &&& 0xF) <<< 4) ||| requestActive.toNat)

/-- Step 5, byte 2: the magnitude's upper part and the sign (40_frame_encoder.md R106). -/
def byte2 (magnitude : Nat) (sign : Bool) : Byte :=
  BitVec.ofNat 8 (((magnitude >>> 8) &&& 0x7) ||| (sign.toNat <<< 3))

/-- Step 6, byte 3: the magnitude's low 8 bits (40_frame_encoder.md R107). -/
def byte3 (magnitude : Nat) : Byte := BitVec.ofNat 8 (magnitude &&& 0xFF)

/-- Step 8: the checksum of a sum of bytes 0 to 6 (40_frame_encoder.md R109). -/
def checksum (sum : Nat) : Byte := BitVec.ofNat 8 ((0x100 - sum % 0x100) % 0x100)

/-- A frame with byte 7 set to the checksum of the other seven (40_frame_encoder.md R109). -/
def closeFrame (f : Frame) : Frame := { f with b7 := checksum f.sum7 }

/-- `ENCODE(torque, counter, requestActive)` (40_frame_encoder.md R100); bytes 1, 4, 5 and 6 are the
reserved zeros of R105 and R108. -/
def encodeFrame (torque : Int) (counter : Nat) (requestActive : Bool) : Frame :=
  let tc := clampTorque torque
  let magnitude := magnitudeOf tc
  closeFrame
    { b0 := byte0 counter requestActive
      b1 := 0x00#8
      b2 := byte2 magnitude (signFlag tc)
      b3 := byte3 magnitude
      b4 := 0x00#8
      b5 := 0x00#8
      b6 := 0x00#8
      b7 := 0x00#8 }

end Sys2Proof.Machine
end

