-- ==== Sys2Proof/Machine/Operands.lean ====
section
/-! DEFINITION. The operand forms: the implicit operands of the tick operations (spec/30_encoding.md
R86) and the intent-to-torque mapper as one function (spec/41_control_loop.md R132). -/

namespace Sys2Proof.Machine

/-- The torque of Neutral and of a reserved code (41_control_loop.md R135, R139). -/
def neutralTorque : Torque := 0#16

/-- The torque of Left: the step negated, exact because -32768 is no legal step
(41_control_loop.md R136, 40_frame_encoder.md R111). -/
def leftTorque (s : State) : Torque := -s.cfg.steerStep

/-- The torque of Right (41_control_loop.md R137). -/
def rightTorque (s : State) : Torque := s.cfg.steerStep

/-- The torque of a tick with no intent, by the hold policy (41_control_loop.md R140). -/
def idleTorque (s : State) : Torque :=
  match s.cfg.holdPolicy with
  | .latchLastValue => s.trq
  | .neutralOnNoInput => 0#16

/-- What the mapper makes of an intent word. -/
inductive MapResult
  | quit
  | torque (t : Torque)
  deriving DecidableEq, Repr

/-- `MAP(iw, trq, cfg)`, the mapper of 41_control_loop.md R132 read from its own text. The operations
do not call it: that they agree with it is a statement. -/
def mapIntent (iw : IntentWord) (trq : Torque) (cfg : Config) : MapResult :=
  if iw.getLsbD 3 then
    match (iw.extractLsb' 0 3).toNat with
    | 0 => .torque 0#16
    | 1 => .torque (-cfg.steerStep)
    | 2 => .torque cfg.steerStep
    | 3 => .quit
    | _ => .torque 0#16
  else if cfg.holdPolicy = .latchLastValue then .torque trq
  else .torque 0#16

end Sys2Proof.Machine
end

