-- ==== Sys2Proof/Machine/Ops.lean ====
section
/-! DEFINITION. The named operations over the registers and ports: stopping (the block's exception
mechanism), reset (the one way back), `Send`, the shared sequence `EMIT`, the gate every tick
operation passes, and the reading of the environment. -/

namespace Sys2Proof.Machine

/-- The constant command identifier 0x340 on the 11-bit `tx_id` (20_memory.md R56, log 23). -/
def commandId : BitVec 11 := 0x340#11

/-! ## Stopping and starting again -/

/-- The transition to Stopped: `run` and `cause` are written together, nothing is saved elsewhere
(10_state.md R24, 60_exceptions.md R180). -/
def stop (c : Cause) (s : State) : State := { s with run := .stopped, cause := c }

/-- The two exceptions that stop the block; EncodingError cannot occur (60_exceptions.md R170, R171). -/
inductive Exception
  /-- InputDeviceError (60_exceptions.md R178) -/
  | inputDevice
  /-- TransportError at the failure limit (60_exceptions.md R176) -/
  | transportLimit
  deriving DecidableEq, Repr

/-- The code an exception records in `cause` (60_exceptions.md R170). -/
def causeOf : Exception → Cause
  | .inputDevice => .inFatal
  | .transportLimit => .txFatal

/-- Taking an exception: the one shared operation (60_exceptions.md R180). There is no return from
one (R182). -/
def raise (e : Exception) (s : State) : State := stop (causeOf e) s

/-- Reset: the registers, the timer, the strobe and the trace at their reset values
(10_state.md R37, 70_reset_and_hazards.md R210). The configuration and the ports are inputs and the
schedule is the environment's: none is the block's to reset. -/
def doReset (s : State) : State :=
  { State.reset with
    cfg := s.cfg, rst := s.rst, iw := s.iw, inErr := s.inErr, txErr := s.txErr
    pending := s.pending, freeStep := s.freeStep }

/-! ## Send and EMIT -/

/-- The transport's answer on `tx_err`, read in the same step (10_state.md R38, log 19). -/
def txAnswer (s : State) : TxAnswer := if s.txErr then .err else .ok

/-- FrameEncoder evaluated: its output lines carry the frame (40_frame_encoder.md R118, log 5). -/
def driveEncoder (torque : Int) (counter : Nat) (requestActive : Bool) (s : State) : State :=
  { s with encOut := some (encodeFrame torque counter requestActive) }

/-- `Send(0x340, frame, cfg.busIndex)`: one strobe, one event of the trace (41_control_loop.md R146). -/
def send (f : Frame) (s : State) : State :=
  { s with
    tx := some f
    trace := s.trace ++ [⟨commandId, f, s.cfg.busIndex, txAnswer s⟩] }

/-- What the transport's answer does: Ok clears the failure count, Err advances it and stops the
block at the limit (60_exceptions.md R176, the definition by 90_conflicts.md C12). -/
def countAnswer (s : State) : State :=
  match txAnswer s with
  | .ok => { s with failc := 0 }
  | .err =>
    let s' := { s with failc := s.failc + 1 }
    if s.cfg.txFailLimit ≤ s.failc + 1 then raise .transportLimit s' else s'

/-- `EMIT(t)`, steps 3 to 6 of a tick (41_control_loop.md R133): the flag, the frame with the counter
BEFORE its increment, one `Send`, the counter and the torque whatever the answer, the answer. -/
def emit (t : Torque) (s : State) : State :=
  let req := requestFlag t
  let frame := encodeFrame t.toInt s.cnt.toNat req
  let sent := send frame (driveEncoder t.toInt s.cnt.toNat req s)
  countAnswer { sent with cnt := s.cnt + 1#4, trq := t }

/-- The order of evaluation of a tick (41_control_loop.md R130, 60_exceptions.md R184): Stopped does
nothing (R151), then an input error (R178), then the operation. -/
def tickGate (op : State → State) (s : State) : State :=
  match s.run with
  | .stopped => s
  | .running => if s.inErr then raise .inputDevice s else op s

/-! ## The environment -/

/-- The next event and the state without it: the schedule's head, or, where nothing is scheduled, a
tick with free inputs (60_exceptions.md R190; log 1, log 2). -/
def nextStimulus (s : State) : Stimulus × State :=
  match s.pending with
  | x :: rest => (x, { s with pending := rest })
  | [] => (.tick (Config.freeInputs s.freeStep), { s with freeStep := s.freeStep + 1 })

/-- A step begins with both output strobes low (10_state.md R38: `tx_valid` is a one-step strobe). -/
def lowerStrobes (s : State) : State := { s with tx := none, encOut := none }

/-- The environment presents its inputs on the ports (10_state.md R38). -/
def present (p : InPorts) (s : State) : State :=
  { s with rst := p.rst, iw := p.iw, inErr := p.inErr, txErr := p.txErr }

/-- A tick of a running block restarts the reference timer; in Stopped it does not move
(60_exceptions.md R192, R193; log 12). -/
def restartTimer (s : State) : State :=
  match s.run with
  | .running => { s with ptimer := 0 }
  | .stopped => s

/-! ## The status outputs and the output ports -/

/-- `st_run`: Running 1, Stopped 0 (10_state.md R23, R30). -/
def stRun (s : State) : BitVec 1 :=
  match s.run with
  | .running => 1#1
  | .stopped => 0#1

/-- `st_cause` (10_state.md R24, R30). -/
def stCause (s : State) : BitVec 2 :=
  match s.cause with
  | .none => 0b00#2
  | .quit => 0b01#2
  | .txFatal => 0b10#2
  | .inFatal => 0b11#2

/-- `st_cnt` (10_state.md R30). -/
def stCnt (s : State) : BitVec 4 := s.cnt

/-- `st_trq` (10_state.md R30). -/
def stTrq (s : State) : BitVec 16 := s.trq

/-- `tx_valid`, high in the step that hands a frame over (10_state.md R38). -/
def txValid (s : State) : Bool := s.tx.isSome

/-- `tx_id`, constant (20_memory.md R56). -/
def txId (_ : State) : BitVec 11 := commandId

/-- `tx_bus`, the configured bus index (10_state.md R38). -/
def txBus (s : State) : BitVec 8 := s.cfg.busIndex

/-- `tx_data` in the step that hands a frame over; not stated otherwise (20_memory.md R53, log 16). -/
def txData (s : State) : Option (BitVec 64) := s.tx.map Frame.toPort

end Sys2Proof.Machine
end

