-- ==== Sys2Proof/Machine/EncodeOp.lean ====
section
/-! DEFINITION. `ENCODE` as an operation by itself (spec/40_frame_encoder.md R100, R110, R118). -/

namespace Sys2Proof.Machine

/-- `ENCODE`: its frame stands on FrameEncoder's output lines; no register and no port of the block
is read or written, in any loop state (R100, R110; log 4, log 5). -/
def execEncode (torque : Int) (counter : Nat) (requestActive : Bool) (s : State) :
    Host.Outcome State Fault Refusal :=
  .next (driveEncoder torque counter requestActive s)

end Sys2Proof.Machine
end

