-- ==== Sys2Proof/Machine/TickOps.lean ====
section
/-! DEFINITION. The six tick operations (spec/41_control_loop.md R135 to R141), each one line over
the shared gate and `EMIT`. -/

namespace Sys2Proof.Machine

/-- `T.NONE`: `EMIT(trq)` or `EMIT(0)` by the hold policy; the CODE bits are ignored (R140). -/
def execTNone (_code : BitVec 3) (s : State) : Host.Outcome State Fault Refusal :=
  .next (tickGate (fun s => emit (idleTorque s) s) s)

/-- `T.NEUTRAL`: `EMIT(0)` (R135). -/
def execTNeutral (s : State) : Host.Outcome State Fault Refusal :=
  .next (tickGate (fun s => emit neutralTorque s) s)

/-- `T.LEFT`: `EMIT(-cfg.steerStep)` (R136). -/
def execTLeft (s : State) : Host.Outcome State Fault Refusal :=
  .next (tickGate (fun s => emit (leftTorque s) s) s)

/-- `T.RIGHT`: `EMIT(+cfg.steerStep)` (R137). -/
def execTRight (s : State) : Host.Outcome State Fault Refusal :=
  .next (tickGate (fun s => emit (rightTorque s) s) s)

/-- `T.QUIT`: stop with cause QUIT and nothing else (R141). -/
def execTQuit (s : State) : Host.Outcome State Fault Refusal :=
  .next (tickGate (fun s => stop .quit s) s)

/-- `T.RSVD`: `EMIT(0)`; the two low CODE bits are ignored (R139). -/
def execTRsvd (_low : BitVec 2) (s : State) : Host.Outcome State Fault Refusal :=
  .next (tickGate (fun s => emit neutralTorque s) s)

end Sys2Proof.Machine
end

