-- ==== Sys2Proof/Machine/Dispatch.lean ====
section
/-! DEFINITION. One arm per operation. -/

namespace Sys2Proof.Machine

/-- The meaning of each operation, by name. -/
def exec (i : Instr) (s : State) : Host.Outcome State Fault Refusal :=
  match i with
  | .tNone code => Sys2Proof.Machine.execTNone code s
  | .tNeutral => Sys2Proof.Machine.execTNeutral s
  | .tLeft => Sys2Proof.Machine.execTLeft s
  | .tRight => Sys2Proof.Machine.execTRight s
  | .tQuit => Sys2Proof.Machine.execTQuit s
  | .tRsvd low => Sys2Proof.Machine.execTRsvd low s
  | .encode torque counter requestActive => Sys2Proof.Machine.execEncode torque counter requestActive s

end Sys2Proof.Machine
end

