-- ==== Sys2Proof/Machine/Events.lean ====
section
/-! DEFINITION. What each event of the environment does: a tick, a clock edge of the reference timer,
a configuration driven, a direct call of FrameEncoder (spec/70_reset_and_hazards.md R216). -/

namespace Sys2Proof.Machine

/-- The state in which the operation of a tick runs: its inputs sampled, the timer restarted. -/
def sampled (p : InPorts) (s : State) : State := restartTimer (present p s)

/-- A tick: reset dominates (60_exceptions.md R184), else the operation the intent word selects runs
(41_control_loop.md R130, 30_encoding.md R85). A tick after a reset begins a new run and does not ask
whether the collaborators were acquired again: the model's choice (DESIGN CHOICE, log 27). -/
def onTick (p : InPorts) (s : State) : Host.Outcome State Fault Refusal :=
  if p.rst then .next (doReset (present p s))
  else exec (decodeIntentWord p.iw) (sampled p s)

/-- An edge of `clk` (60_exceptions.md R192, R193): reset dominates; Stopped does not count; the last
cycle of the period is a tick; any other only counts. A restart asks nothing of the collaborators
(log 27). -/
def onEdge (p : InPorts) (s : State) : Host.Outcome State Fault Refusal :=
  if p.rst then .next (doReset (present p s))
  else match s.run with
    | .stopped => .next (present p s)
    | .running =>
      if s.ptimer = s.cfg.periodCycles - 1 then onTick p s
      else .next { present p s with ptimer := s.ptimer + 1 }

/-- The host drives a configuration: taken in reset and in Stopped, and where it changes nothing; a
change inside a run is outside the spec (20_memory.md R60, 93_implementation_defined.md U8; log 11, and log 28 for reachable runs). -/
def onStraps (c : Config) (s : State) : Host.Outcome State Fault Refusal :=
  if s.rst = true ∨ s.run = .stopped ∨ c = s.cfg then .next { s with cfg := c }
  else .refused .configChangedDuringRun

/-- FrameEncoder called by itself, with the operands the FRAME carries (log 4, log 6). -/
def onCall (f : Frame) (s : State) : Host.Outcome State Fault Refusal :=
  match decodeFrame f with
  | .ok i => exec i s
  | .error e => .refused (.notAnEncodeResult e)

/-- One event, on a state whose strobes are low. -/
def onStimulus (x : Stimulus) (s : State) : Host.Outcome State Fault Refusal :=
  match x with
  | .tick p => onTick p s
  | .edge p => onEdge p s
  | .straps c => onStraps c s
  | .call f => onCall f s

/-- The event that makes the next step run the operation whose table word is `w`: a tick that presents
the intent word with no error and the answer Ok (log 20), or a direct call with the FRAME. -/
def fetchStimulus (nbits w : Nat) : Stimulus :=
  if nbits ≤ 8 then .tick { rst := false, iw := BitVec.ofNat 4 w, inErr := false, txErr := false }
  else .call (Frame.ofPort (BitVec.ofNat 64 w))

end Sys2Proof.Machine
end

