-- ==== Sys2Proof/Machine/Step.lean ====
section
/-! DEFINITION. One step of the machine: one event of the environment (log 1). -/

namespace Sys2Proof.Machine

/-- One step: the next event, on a state whose strobes are low. -/
def step (s : State) : Host.Outcome State Fault Refusal :=
  let (x, rest) := nextStimulus s
  onStimulus x (lowerStrobes rest)

/-- `s` with the given operation as the next event (log 3). -/
def State.withFetchWord (s : State) (nbits w : Nat) : State :=
  { s with pending := fetchStimulus nbits w :: s.pending }

end Sys2Proof.Machine
end

