-- ==== Sys2Proof/Machine/Startup.lean ====
section
/-! DEFINITION. Before the release of reset: what the surroundings must have done, and the run that
begins (spec/70_reset_and_hazards.md R213; spec/60_exceptions.md R172, R177). -/

namespace Sys2Proof.Machine

/-- What the surroundings did at start-up. -/
structure Startup where
  /-- the input collaborator was acquired (60_exceptions.md R172) -/
  inputAcquired : Bool
  /-- the transport collaborator was acquired (60_exceptions.md R177) -/
  transportAcquired : Bool
  /-- the configuration put on the `cfg_*` inputs -/
  pins : CfgPins
  deriving DecidableEq, Repr

/-- The run that a start-up begins: the reset state with the configuration driven, or none, reset
being never released, where a collaborator is missing or the configuration is not legal (log 10,
log 21). The premise is asked here only, where the first run begins (log 27). -/
def release (l : Startup) : Option State :=
  if l.inputAcquired && l.transportAcquired then
    if h : l.pins.wf = true then some { State.reset with cfg := { l.pins with legal := h } } else none
  else none

end Sys2Proof.Machine
end

