-- ==== Sys2Proof/Safety.lean ====
section
/-! DEFINITION. The terms in which claims speak of a run: what a frame's fields are, what one
emission did, the premises of a run, the invariants, and the reachable states (spec/10_state.md
R36; spec/70_reset_and_hazards.md R213). -/

namespace Sys2Proof.Machine

/-- The eight bytes of the FRAME for torque `t`, counter `c`, flag `r`, field by field as numbers
(30_encoding.md R70 to R76). It names no function of the encoder. -/
def FrameFields (t : Int) (c : Nat) (r : Bool) (f : Frame) : Prop :=
  f.b0.toNat = 16 * (c % 16) + (if r then 1 else 0) ∧
  f.b1 = 0#8 ∧
  f.b2.toNat = (if t < 0 then 8 else 0) + min 1023 t.natAbs / 256 ∧
  f.b3.toNat = min 1023 t.natAbs % 256 ∧
  f.b4 = 0#8 ∧ f.b5 = 0#8 ∧ f.b6 = 0#8 ∧
  f.b7.toNat = (256 - (f.b0.toNat + f.b2.toNat + f.b3.toNat) % 256) % 256

/-- The conditions of 30_encoding.md R78 on 8 bytes, as the rule writes them. -/
def Producible (f : Frame) : Prop :=
  f.b0 &&& 0x0E#8 = 0#8 ∧
  f.b1 = 0#8 ∧ f.b4 = 0#8 ∧ f.b5 = 0#8 ∧ f.b6 = 0#8 ∧
  f.b2 &&& 0xF4#8 = 0#8 ∧
  ¬(f.b2 &&& 0x08#8 ≠ 0#8 ∧ f.b2 &&& 0x03#8 = 0#8 ∧ f.b3 = 0#8) ∧
  (f.b0.toNat + f.b1.toNat + f.b2.toNat + f.b3.toNat + f.b4.toNat + f.b5.toNat + f.b6.toNat +
    f.b7.toNat) % 256 = 0

/-- The request flag of a frame is set exactly when its magnitude is not 0 (41_control_loop.md R144). -/
def Coupled (f : Frame) : Prop :=
  f.b0 &&& 0x01#8 = 1#8 ↔ (f.b2 &&& 0x07#8).toNat * 256 + f.b3.toNat ≠ 0

/-- A zero-torque, request-off frame with counter `c` (41_control_loop.md R157). -/
def IdleFrame (c : Nat) (f : Frame) : Prop := FrameFields 0 c false f

/-- The ports, the timer, the configuration and the environment are untouched: what a tick operation
leaves alone whatever it does. -/
structure KeepsSurroundings (s s' : State) : Prop where
  ptimer : s'.ptimer = s.ptimer
  cfg : s'.cfg = s.cfg
  rst : s'.rst = s.rst
  iw : s'.iw = s.iw
  inErr : s'.inErr = s.inErr
  txErr : s'.txErr = s.txErr
  pending : s'.pending = s.pending
  freeStep : s'.freeStep = s.freeStep

/-- What the emission of torque `t` does to the state, register by register: 41_control_loop.md R133
with 60_exceptions.md R176, and its frame. -/
structure Emits (t : Torque) (s s' : State) : Prop where
  /-- one `Send` of one frame, built from the counter before its increment (R144 to R146) -/
  sends : ∃ f, FrameFields t.toInt s.cnt.toNat (decide (t ≠ 0#16)) f ∧
    s'.tx = some f ∧
    s'.trace = s.trace ++ [⟨0x340#11, f, s.cfg.busIndex, if s.txErr then .err else .ok⟩]
  /-- the counter advances whatever the answer (R147, R148) -/
  cnt : s'.cnt.toNat = (s.cnt.toNat + 1) % 16
  /-- the torque is kept before clamping (R149) -/
  trq : s'.trq = t
  /-- the failure count (60_exceptions.md R176) -/
  failc : s'.failc = if s.txErr then s.failc + 1 else 0
  /-- the failure limit stops the block, anything else leaves it running (R176) -/
  stops : if s.txErr = true ∧ s.failc + 1 ≥ s.cfg.txFailLimit
    then s'.run = .stopped ∧ s'.cause = .txFatal
    else s'.run = s.run ∧ s'.cause = s.cause
  keeps : KeepsSurroundings s s'

/-- A stop that emits nothing: `run` and `cause` are written, all else stands (60_exceptions.md R178,
R180; 41_control_loop.md R141). -/
structure StopsSilently (c : Cause) (s s' : State) : Prop where
  run : s'.run = .stopped
  cause : s'.cause = c
  cnt : s'.cnt = s.cnt
  trq : s'.trq = s.trq
  failc : s'.failc = s.failc
  trace : s'.trace = s.trace
  tx : s'.tx = s.tx
  encOut : s'.encOut = s.encOut
  keeps : KeepsSurroundings s s'

/-- No element of the block's state differs (10_state.md R36, last clause but one; 41_control_loop.md
R151): the registers, the timer and the trace. -/
structure SameRegisters (s s' : State) : Prop where
  run : s'.run = s.run
  cause : s'.cause = s.cause
  cnt : s'.cnt = s.cnt
  trq : s'.trq = s.trq
  failc : s'.failc = s.failc
  ptimer : s'.ptimer = s.ptimer
  trace : s'.trace = s.trace

/-- The registers, the timer, the strobe and the trace are at their reset values (10_state.md R37). -/
structure AtReset (s : State) : Prop where
  run : s.run = .running
  cause : s.cause = .none
  cnt : s.cnt = 0#4
  trq : s.trq = 0#16
  failc : s.failc = 0
  ptimer : s.ptimer = 0
  trace : s.trace = []

/-- Premise (1) of a run (70_reset_and_hazards.md R213). -/
def CollaboratorsAcquired (l : Startup) : Prop :=
  l.inputAcquired = true ∧ l.transportAcquired = true

/-- Premise (2) of a run, for one step: the configuration changes in reset only
(70_reset_and_hazards.md R213, R220). The spec asks stability until Stopped (20_memory.md R60) and for
the whole run (R211, R213); the premise takes the longer time, so that a change in Stopped, which
`onStraps` accepts, is no step of a reachable run: the model's choice (DESIGN CHOICE, log 28). -/
def ConfigStable (s s' : State) : Prop := s'.cfg = s.cfg ∨ s.rst = true

/-- The torque register holds 0 or the step of either direction (10_state.md R36). -/
def TorqueIsCommanded (s : State) : Prop :=
  s.trq = 0#16 ∨ s.trq = s.cfg.steerStep ∨ s.trq = -s.cfg.steerStep

/-- The invariants 10_state.md R36 lists, with the range of R26. -/
structure RegisterInvariants (s : State) : Prop where
  counterRange : s.cnt.toNat ≤ 15
  causeMatchesRun : s.cause = .none ↔ s.run = .running
  failuresBelowLimit : s.run = .running → s.failc < s.cfg.txFailLimit
  torque : TorqueIsCommanded s
  phase : s.ptimer < s.cfg.periodCycles
  countsFrames : s.cnt.toNat = s.trace.length % 16

/-- One event of the trace, the `k`-th since reset: the constant identifier, a frame an `ENCODE`
produces, coupled, with counter `k mod 16` (41_control_loop.md R144, R154, R156). -/
structure SoundEvent (k : Nat) (e : SendEvent) : Prop where
  identifier : e.identifier = 0x340#11
  producible : Producible e.frame
  coupled : Coupled e.frame
  counter : e.frame.b0.toNat / 16 = k % 16

/-- The invariant every step keeps, whatever the environment does: the configuration clauses are
asked of a Running block only, because in Stopped the host may drive another configuration. -/
structure Inv (s : State) : Prop where
  causeMatchesRun : s.cause = .none ↔ s.run = .running
  failuresBelowLimit : s.run = .running → s.failc < s.cfg.txFailLimit
  torque : s.run = .running → TorqueIsCommanded s
  phase : s.run = .running → s.ptimer < s.cfg.periodCycles
  countsFrames : s.cnt.toNat = s.trace.length % 16
  events : ∀ (k : Nat) (e : SendEvent), s.trace[k]? = some e → SoundEvent k e
  busIndex : s.run = .running → ∀ e ∈ s.trace, e.busIndex = s.cfg.busIndex
  resetHeld : s.rst = true → AtReset s

/-- The states of a run: begun by a start-up that succeeds, with any schedule of the environment, and
continued by steps that hold the configuration stable (70_reset_and_hazards.md R213). A step may reset
and so begin a later run, of which the collaborators are not asked again (log 27). `stable` leaves out a change in Stopped
(log 28). -/
inductive Reachable : State → Prop
  | start (l : Startup) (s : State) (schedule : List Stimulus) (acquired : CollaboratorsAcquired l)
      (released : release l = some s) : Reachable { s with pending := schedule }
  | step (s s' : State) (before : Reachable s) (next : step s = .next s')
      (stable : ConfigStable s s') : Reachable s'

/-- `k` steps, stopping at the first that answers no next state. -/
def runSteps : Nat → State → Host.Outcome State Fault Refusal
  | 0, s => .next s
  | k + 1, s =>
    match step s with
    | .next s' => runSteps k s'
    | .fault r => .fault r
    | .refused r => .refused r

/-- An event in which reset is asserted (70_reset_and_hazards.md R210). -/
def assertsReset : Stimulus → Bool
  | .tick p => p.rst
  | .edge p => p.rst
  | .straps _ => false
  | .call _ => false

/-- Inputs that let a tick perform its operation: no reset, no input error. -/
def quietPorts (p : InPorts) : Bool := !p.rst && !p.inErr

/-- A tick that lets its operation run and presents no intent (41_control_loop.md R140). -/
def idleTick (x : Stimulus) : Bool :=
  match x with
  | .tick p => quietPorts p && !p.iw.getLsbD 3
  | _ => false

/-- A tick that lets its operation run and presents a reserved intent (41_control_loop.md R139). -/
def reservedTick (x : Stimulus) : Bool :=
  match x with
  | .tick p => quietPorts p && p.iw.getLsbD 3 && p.iw.getLsbD 2
  | _ => false

/-- The transport answers Ok, should the event send. -/
def answersOk (x : Stimulus) : Bool :=
  match x with
  | .tick p => !p.txErr
  | .edge p => !p.txErr
  | _ => true

/-- The Quit word 1011 (30_encoding.md R81). -/
def quitWord : IntentWord := 0b1011#4

/-- A tick that performs an emitting operation whose `Send` fails (60_exceptions.md R173). -/
def failingTick (x : Stimulus) : Bool :=
  match x with
  | .tick p => quietPorts p && p.txErr && decide (p.iw ≠ quitWord)
  | _ => false

/-- A word that commands zero torque without asking the hold policy: Neutral or a reserved code. -/
def neutralWord (iw : IntentWord) : Bool := iw.getLsbD 3 && (iw.getLsbD 2 || decide (iw = 0b1000#4))

/-- Two ticks that differ in ignored bits only: the same reset, input error and answer, and words that
are equal, both without an intent, or both neutral (30_encoding.md R81, R82). -/
def SameButIgnoredBits (p q : InPorts) : Prop :=
  p.rst = q.rst ∧ p.inErr = q.inErr ∧ p.txErr = q.txErr ∧
  (p.iw = q.iw ∨ (p.iw.getLsbD 3 = false ∧ q.iw.getLsbD 3 = false) ∨
    (neutralWord p.iw = true ∧ neutralWord q.iw = true))

end Sys2Proof.Machine
end

