-- ==== Sys2Proof/Certificates/Slice0/Obligations.lean ====
section
/-! DEFINITION. The statements for the provers, each an `Obligations.<Name>`; OBLIGATIONS.json lists
them with the rule or section of spec/ each formalises. -/

open Sys2Proof Sys2Proof.Machine

/-! ## Encodings -/

/-- Decode and encode agree, for every operation and every operand an encoding admits. -/
def Obligations.DecodeOfEncodeIsTheInstruction : Prop :=
  ∀ i : Instr, i.wf = true → decode (encode i) = .ok i

/-- The intent codes (numbers: the spec's decision D6): each word selects one operation, CODE is
ignored without VALID, and no bit of a word is dropped. -/
def Obligations.IntentCodesSelectTheirOperation : Prop :=
  (∀ code : BitVec 3, decodeIntentWord (0#1 ++ code) = .tNone code) ∧
  decodeIntentWord 0b1000#4 = .tNeutral ∧ decodeIntentWord 0b1001#4 = .tLeft ∧
  decodeIntentWord 0b1010#4 = .tRight ∧ decodeIntentWord 0b1011#4 = .tQuit ∧
  (∀ low : BitVec 2, decodeIntentWord (0b11#2 ++ low) = .tRsvd low) ∧
  (∀ iw : IntentWord, encodeIntentWord (decodeIntentWord iw) = some iw)

/-- A few words of the table, written out from its patterns, decode to their rows. -/
def Obligations.TableWordsDecodeToTheirRows : Prop :=
  decodeTableWord 8 0b0101 = some (.tNone 0b101#3) ∧
  decodeTableWord 8 0b1001 = some .tLeft ∧
  decodeTableWord 8 0b1110 = some (.tRsvd 0b10#2) ∧
  decodeTableWord 64 0x7A0000002C090051 = some (.encode (-300) 5 true) ∧
  decodeTableWord 8 0b10000 = none

/-- Byte `i` of a frame is `tx_data[8i+7 : 8i]` (the spec's decision D14), and the port loses nothing. -/
def Obligations.FrameBytesLieOnTheirPortLanes : Prop :=
  ∀ f : Frame,
    f.toPort.extractLsb' 0 8 = f.b0 ∧ f.toPort.extractLsb' 8 8 = f.b1 ∧
    f.toPort.extractLsb' 16 8 = f.b2 ∧ f.toPort.extractLsb' 24 8 = f.b3 ∧
    f.toPort.extractLsb' 32 8 = f.b4 ∧ f.toPort.extractLsb' 40 8 = f.b5 ∧
    f.toPort.extractLsb' 48 8 = f.b6 ∧ f.toPort.extractLsb' 56 8 = f.b7 ∧
    Frame.ofPort f.toPort = f

/-! ## The frame encoder -/

/-- Steps 1 and 2: clamp, then split into sign and magnitude. -/
def Obligations.ClampThenSignAndMagnitude : Prop :=
  ∀ torque : Int,
    clampTorque torque =
      (if torque < -1023 then -1023 else if torque > 1023 then 1023 else torque) ∧
    (signFlag (clampTorque torque) = false ↔ clampTorque torque ≥ 0) ∧
    ((magnitudeOf (clampTorque torque) : Int) =
      if clampTorque torque ≥ 0 then clampTorque torque else -clampTorque torque) ∧
    magnitudeOf (clampTorque torque) ≤ 1023 ∧
    (signFlag (clampTorque torque) = true → magnitudeOf (clampTorque torque) ≥ 1)

/-- Steps 3 to 7, the bytes before the checksum, bit field by bit field (that bit 2 of byte 2 is 0 the
spec derives from step 2). -/
def Obligations.FrameBytesHoldTheirFields : Prop :=
  ∀ (torque : Int) (counter : Nat) (requestActive : Bool),
    let b := encodeFrame torque counter requestActive
    let tc := clampTorque torque
    b.b0 >>> 4 = BitVec.ofNat 8 (counter % 16) ∧
    (b.b0 &&& 0x01#8) = (if requestActive then 1#8 else 0#8) ∧ b.b0 &&& 0x0E#8 = 0#8 ∧
    b.b1 = 0x00#8 ∧
    (b.b2 &&& 0x07#8).toNat = tc.natAbs / 256 ∧ (b.b2.getLsbD 3 = decide (tc < 0)) ∧
    b.b2 &&& 0xF4#8 = 0#8 ∧
    b.b3.toNat = tc.natAbs % 256 ∧
    b.b4 = 0x00#8 ∧ b.b5 = 0x00#8 ∧ b.b6 = 0x00#8

/-- Step 8: the checksum over bytes 0 to 6, the largest sum, and the round trip. -/
def Obligations.ChecksumMakesTheBytesSumToZero : Prop :=
  ∀ (torque : Int) (counter : Nat) (requestActive : Bool),
    let b := encodeFrame torque counter requestActive
    let sum := b.b0.toNat + b.b1.toNat + b.b2.toNat + b.b3.toNat + b.b4.toNat + b.b5.toNat +
      b.b6.toNat
    b.b7.toNat = (0x100 - sum % 0x100) % 0x100 ∧
    sum = b.b0.toNat + b.b2.toNat + b.b3.toNat ∧ sum ≤ 0x1FB ∧
    (sum + b.b7.toNat) % 256 = 0

/-- The counter is the high nibble of byte 0 and the request flag its low bit, whatever the torque. -/
def Obligations.CounterIsTheHighNibbleOfByte0 : Prop :=
  ∀ (torque : Int) (counter : Nat) (requestActive : Bool), counter ≤ 15 →
    ((encodeFrame torque counter requestActive).b0 >>> 4).toNat = counter ∧
    ((encodeFrame torque counter requestActive).b0 &&& 1#8).toNat = requestActive.toNat

/-- Read back by the receiver's formulas a frame gives its counter, its flag and the clamped torque
(derived by the spec). -/
def Obligations.FrameReadsBackItsOperands : Prop :=
  ∀ (torque : Int) (counter : Nat) (requestActive : Bool), counter ≤ 15 →
    let b := encodeFrame torque counter requestActive
    let magnitude : Int := ((b.b2 &&& 0x07#8).toNat * 256 + b.b3.toNat : Nat)
    (b.b0 >>> 4).toNat = counter ∧
    (b.b0 &&& 0x01#8 = 1#8 ↔ requestActive = true) ∧
    (if (b.b2 >>> 3) &&& 0x01#8 = 0#8 then magnitude else -magnitude) =
      max (-1023) (min 1023 torque) ∧
    decodeFrame b = .ok (.encode (max (-1023) (min 1023 torque)) counter requestActive)

/-- For every torque, and so for the source's [-2000, 2000], the magnitude is at most 1023 and the sign
bit is that of the clamped torque. -/
def Obligations.MagnitudeAndSignMatchTheClamp : Prop :=
  ∀ (torque : Int) (counter : Nat) (requestActive : Bool),
    let b := encodeFrame torque counter requestActive
    b.magnitude = (max (-1023) (min 1023 torque)).natAbs ∧ b.magnitude ≤ 1023 ∧
    (b.sign = true ↔ max (-1023) (min 1023 torque) < 0)

/-- `ENCODE` is injective on its intended domain, and outside it clamps (derived by the spec). -/
def Obligations.EncodeIsInjectiveOnItsDomain : Prop :=
  (∀ (t t' : Int) (c c' : Nat) (r r' : Bool), -1023 ≤ t → t ≤ 1023 → -1023 ≤ t' → t' ≤ 1023 →
    c ≤ 15 → c' ≤ 15 → encodeFrame t c r = encodeFrame t' c' r' → t = t' ∧ c = c' ∧ r = r') ∧
  (∀ (t : Int) (c : Nat) (r : Bool), t ≥ 1023 → encodeFrame t c r = encodeFrame 1023 c r) ∧
  (∀ (t : Int) (c : Nat) (r : Bool), t ≤ -1023 → encodeFrame t c r = encodeFrame (-1023) c r)

/-- The frames the block can produce, exactly (derived by the spec): the encoder's range, the frames
the decoder accepts, the coupling of what the loop emits, and the zero bits on the port. -/
def Obligations.ProducibleFramesAreTheEncodersRange : Prop :=
  (∀ f : Frame, Producible f ↔ ∃ t c r, -1023 ≤ t ∧ t ≤ 1023 ∧ c ≤ 15 ∧ encodeFrame t c r = f) ∧
  (∀ f : Frame, Producible f ↔ ∃ i, decodeFrame f = .ok i) ∧
  (∀ (t : Torque) (c : Nat), Coupled (encodeFrame t.toInt c (requestFlag t))) ∧
  (∀ f : Frame, Producible f → f.toPort &&& 0x00FFFFFF00F4FF0E#64 = 0#64)

/-- The algorithm of the encoder and the bit table of the FRAME give the same frame. -/
def Obligations.AlgorithmAgreesWithTheFrameTable : Prop :=
  ∀ (t : Int) (c : Nat) (r : Bool), -1023 ≤ t → t ≤ 1023 →
    encodeFrame t c r = frameLayout (BitVec.ofNat 4 c) r (decide (t < 0)) (BitVec.ofNat 11 t.natAbs)

/-- The worked example of the source, and the encoder-only frames with flag and torque uncoupled. -/
def Obligations.WorkedFramesOfTheSource : Prop :=
  encodeFrame (-300) 5 true = ⟨0x51#8, 0x00#8, 0x09#8, 0x2C#8, 0x00#8, 0x00#8, 0x00#8, 0x7A#8⟩ ∧
  encodeFrame 0 0 false = ⟨0x00#8, 0x00#8, 0x00#8, 0x00#8, 0x00#8, 0x00#8, 0x00#8, 0x00#8⟩ ∧
  encodeFrame 0 3 true = ⟨0x31#8, 0x00#8, 0x00#8, 0x00#8, 0x00#8, 0x00#8, 0x00#8, 0xCF#8⟩ ∧
  encodeFrame 300 0 false = ⟨0x00#8, 0x00#8, 0x01#8, 0x2C#8, 0x00#8, 0x00#8, 0x00#8, 0xD3#8⟩

/-- `ENCODE` completes in every state with every operand: its frame is that of its three operands
alone and stands on the encoder's lines (log 5); nothing else of the state changes. -/
def Obligations.EncodeIsPureAndTotal : Prop :=
  ∀ (torque : Int) (counter : Nat) (requestActive : Bool), ∃ f : Frame,
    FrameFields torque counter requestActive f ∧
    ∀ s : State, exec (.encode torque counter requestActive) s = .next { s with encOut := some f }

/-! ## The tick operations -/

/-- `T.NEUTRAL`: one zero-torque, request-off frame, whatever the hold policy. (In this and the next
four the code is the spec's decision D6, the failure count D10, the kept torque D13.) -/
def Obligations.NeutralTickEmitsZeroTorque : Prop :=
  decodeIntentWord 0b1000#4 = .tNeutral ∧
  ∀ s : State, s.run = .running → s.inErr = false →
    ∃ s' f, exec .tNeutral s = .next s' ∧ Emits 0#16 s s' ∧ s'.tx = some f ∧
      f.b0.toNat = 16 * s.cnt.toNat ∧ f.b1 = 0#8 ∧ f.b2 = 0#8 ∧ f.b3 = 0#8 ∧ f.b4 = 0#8 ∧
      f.b5 = 0#8 ∧ f.b6 = 0#8 ∧ f.b7.toNat = (0x100 - 16 * s.cnt.toNat) % 0x100

/-- `T.LEFT`: the step negated, exactly; `trq` keeps it before clamping (D6, D10, D13). -/
def Obligations.LeftTickEmitsTheNegatedStep : Prop :=
  decodeIntentWord 0b1001#4 = .tLeft ∧
  ∀ s : State, s.run = .running → s.inErr = false →
    ∃ s' f, exec .tLeft s = .next s' ∧ Emits (-s.cfg.steerStep) s s' ∧ s'.tx = some f ∧
      s'.trq.toInt = -s.cfg.steerStep.toInt ∧
      FrameFields (-s.cfg.steerStep.toInt) s.cnt.toNat (decide (s.cfg.steerStep ≠ 0#16)) f

/-- `T.RIGHT`: the step as it is (D6, D10, D13). -/
def Obligations.RightTickEmitsTheStep : Prop :=
  decodeIntentWord 0b1010#4 = .tRight ∧
  ∀ s : State, s.run = .running → s.inErr = false →
    ∃ s' f, exec .tRight s = .next s' ∧ Emits s.cfg.steerStep s s' ∧ s'.tx = some f ∧
      s'.trq.toInt = s.cfg.steerStep.toInt ∧
      FrameFields s.cfg.steerStep.toInt s.cnt.toNat (decide (s.cfg.steerStep ≠ 0#16)) f

/-- `T.RSVD`: an emission of zero torque, identical in every effect and every state to `T.NEUTRAL`
(D6, D10, D13). -/
def Obligations.ReservedTickActsAsNeutral : Prop :=
  ∀ low : BitVec 2, decodeIntentWord (0b11#2 ++ low) = .tRsvd low ∧
    (∀ s : State, exec (.tRsvd low) s = exec .tNeutral s) ∧
    ∀ s : State, s.run = .running → s.inErr = false →
      ∃ s', exec (.tRsvd low) s = .next s' ∧ Emits 0#16 s s'

/-- `T.NONE`: the latched torque again under `latchLastValue`, zero torque under
`neutralOnNoInput`; a frame in both (D6, D10, D13). -/
def Obligations.IdleTickFollowsTheHoldPolicy : Prop :=
  ∀ code : BitVec 3, decodeIntentWord (0#1 ++ code) = .tNone code ∧
    ∀ s : State, s.run = .running → s.inErr = false →
      ∃ s', exec (.tNone code) s = .next s' ∧
        (s.cfg.holdPolicy = .latchLastValue → Emits s.trq s s') ∧
        (s.cfg.holdPolicy = .neutralOnNoInput → Emits 0#16 s s')

/-- The 1-bit strap `cfg.holdPolicy` (the spec's decision D3): 0 codes `latchLastValue`, 1
`neutralOnNoInput`, no other value exists, and an idle tick emits as the strap's bit says. -/
def Obligations.HoldPolicyStrapSelectsTheIdleTorque : Prop :=
  (∀ c : CfgPins, (c.holdPolicyBit = 0#1 ↔ c.holdPolicy = .latchLastValue) ∧
    (c.holdPolicyBit = 1#1 ↔ c.holdPolicy = .neutralOnNoInput) ∧
    c.holdPolicy.bit = c.holdPolicyBit) ∧
  ∀ (code : BitVec 3) (s : State), s.run = .running → s.inErr = false →
    ∃ s', exec (.tNone code) s = .next s' ∧
      (s.cfg.holdPolicyBit = 0#1 → Emits s.trq s s') ∧
      (s.cfg.holdPolicyBit = 1#1 → Emits 0#16 s s')

/-- `T.QUIT`: Stopped with cause QUIT, nothing else, and no later tick does anything (the code is the
spec's decision D6, the cause D11). -/
def Obligations.QuitTickStopsWithoutAFrame : Prop :=
  decodeIntentWord 0b1011#4 = .tQuit ∧
  ∀ s : State, s.run = .running → s.inErr = false →
    ∃ s', exec .tQuit s = .next s' ∧ StopsSilently .quit s s' ∧
      ∀ iw : IntentWord, exec (decodeIntentWord iw) s' = .next s'

/-- The mapper: whatever word is sampled, the operation it selects quits or emits as `MAP`
says (D6, D10, D11, D13 as above). -/
def Obligations.OperationsFollowTheMapper : Prop :=
  ∀ (iw : IntentWord) (s : State), s.run = .running → s.inErr = false →
    ∃ s', exec (decodeIntentWord iw) s = .next s' ∧
      match mapIntent iw s.trq s.cfg with
      | .quit => StopsSilently .quit s s'
      | .torque t => Emits t s s'

/-! ## Stopping, resetting, starting -/

/-- An input error at a tick (the spec's decision D12): Stopped with IN_FATAL, whatever the word. -/
def Obligations.InputErrorStopsTheBlock : Prop :=
  ∀ (iw : IntentWord) (s : State), s.run = .running → s.inErr = true →
    ∃ s', exec (decodeIntentWord iw) s = .next s' ∧ StopsSilently .inFatal s s'

/-- In Stopped no tick operation has an effect (the spec's decision D24). -/
def Obligations.StoppedTicksDoNothing : Prop :=
  ∀ (iw : IntentWord) (s : State), s.run = .stopped → exec (decodeIntentWord iw) s = .next s

/-- The transport's answer (the spec's decision D10): Ok clears the count, Err advances it, the limit
stops the block with TX_FATAL; the tick's other writes stand in every case. -/
def Obligations.TransportAnswersAreCounted : Prop :=
  ∀ (iw : IntentWord) (s : State), s.run = .running → s.inErr = false → iw ≠ 0b1011#4 →
    ∃ s' e, exec (decodeIntentWord iw) s = .next s' ∧
      s'.trace = s.trace ++ [e] ∧ s'.tx = some e.frame ∧ s'.cnt = s.cnt + 1#4 ∧
      (s.txErr = false → e.result = .ok ∧ s'.failc = 0 ∧ s'.run = .running ∧ s'.cause = s.cause) ∧
      (s.txErr = true → e.result = .err ∧ s'.failc = s.failc + 1) ∧
      (s.txErr = true → s.failc + 1 < s.cfg.txFailLimit →
        s'.run = .running ∧ s'.cause = s.cause) ∧
      (s.txErr = true → s.cfg.txFailLimit ≤ s.failc + 1 →
        s'.run = .stopped ∧ s'.cause = .txFatal)

/-- After reset, as 10_state.md lists it (`run` and `cnt` are the source's; D4, D10, D11, D16 the
rest). That nothing is pending is about the schedule, the model's own field: the model's choice (log 1). -/
def Obligations.ResetLeavesTheListedValues : Prop :=
  State.reset.run = .running ∧ State.reset.cause = .none ∧ State.reset.cnt = 0#4 ∧
  State.reset.trq = 0#16 ∧ State.reset.failc = 0 ∧ State.reset.ptimer = 0 ∧
  State.reset.trace = [] ∧ State.reset.tx = none ∧ State.reset.pending = []

/-- Reset from any state, at a tick or at a clock edge (the spec's decision D17): the reset values,
no frame, whatever else the event presents; the configuration stays. -/
def Obligations.ResetDominatesEveryEvent : Prop :=
  ∀ (p : InPorts) (rest : List Stimulus) (s : State),
    s.pending = .tick p :: rest ∨ s.pending = .edge p :: rest → p.rst = true →
    ∃ s', step s = .next s' ∧ AtReset s' ∧ s'.tx = none ∧ s'.encOut = none ∧ s'.rst = true ∧
      s'.cfg = s.cfg ∧ s'.pending = rest ∧ s'.freeStep = s.freeStep

/-- The order of events at a tick (the spec's decision D26): reset, Stopped, input error, Quit,
emission and its answer. -/
def Obligations.TickFollowsThePriorityOrder : Prop :=
  ∀ (p : InPorts) (rest : List Stimulus) (s : State), s.pending = .tick p :: rest →
    ∃ s', step s = .next s' ∧
      if p.rst = true then AtReset s' ∧ s'.tx = none
      else if s.run = .stopped then SameRegisters s s' ∧ s'.tx = none
      else if p.inErr = true ∨ p.iw = 0b1011#4 then
        s'.run = .stopped ∧ s'.cause = (if p.inErr then .inFatal else .quit) ∧ s'.cnt = s.cnt ∧
        s'.trq = s.trq ∧ s'.failc = s.failc ∧ s'.trace = s.trace ∧ s'.tx = none
      else
        (∃ e, s'.trace = s.trace ++ [e] ∧ s'.tx = some e.frame) ∧ s'.cnt = s.cnt + 1#4 ∧
        if p.txErr = true ∧ s.cfg.txFailLimit ≤ s.failc + 1
        then s'.run = .stopped ∧ s'.cause = .txFatal
        else s'.run = .running ∧ s'.cause = s.cause

/-- No return and no nesting: out of Stopped a step leads to the same registers, `cause` among them,
or, under reset, to the reset values. (That Stopped freezes every register is the spec's decision D24,
reset's part D17.) -/
def Obligations.OnlyResetLeavesStopped : Prop :=
  ∀ s s' : State, step s = .next s' → s.run = .stopped →
    SameRegisters s s' ∨ (s'.rst = true ∧ AtReset s')

/-- Stops are precise (derived by the spec): the stopping step has none of the emitting effects or all
of them. -/
def Obligations.StopsArePrecise : Prop :=
  ∀ s s' : State, step s = .next s' → s.run = .running → s'.run = .stopped →
    (s'.tx = none ∧ s'.trace = s.trace ∧ s'.cnt = s.cnt ∧ s'.trq = s.trq ∧ s'.failc = s.failc ∧
      (s'.cause = .quit ∨ s'.cause = .inFatal)) ∨
    (s'.cause = .txFatal ∧ s'.cnt = s.cnt + 1#4 ∧ s'.failc = s.failc + 1 ∧
      s.cfg.txFailLimit ≤ s'.failc ∧
      ∃ f, s'.tx = some f ∧ s'.trace = s.trace ++ [⟨0x340#11, f, s.cfg.busIndex, .err⟩] ∧
        FrameFields s'.trq.toInt s.cnt.toNat (decide (s'.trq ≠ 0#16)) f)

/-- The start-up of the first run (the spec's decision D22, log 10, log 21; later runs: log 27): reset
is released exactly when both collaborators are acquired and the configuration is legal, and leaves the
reset values. -/
def Obligations.StartupReleasesResetOrNothing : Prop :=
  ∀ l : Startup,
    ((∃ s, release l = some s) ↔ (CollaboratorsAcquired l ∧ l.pins.wf = true)) ∧
    ∀ s, release l = some s → AtReset s ∧ s.cfg.toCfgPins = l.pins ∧ s.tx = none ∧ s.rst = false

/-- A configuration that changes inside a run is refused (the spec's decision D18, log 11); in reset,
in Stopped, or without a change it is taken and no register moves. -/
def Obligations.ConfigurationIsStableInARun : Prop :=
  ∀ (c : Config) (rest : List Stimulus) (s : State), s.pending = .straps c :: rest →
    (s.run = .running → s.rst = false → c ≠ s.cfg →
      step s = .refused .configChangedDuringRun) ∧
    ((s.run = .stopped ∨ s.rst = true ∨ c = s.cfg) →
      ∃ s', step s = .next s' ∧ s'.cfg = c ∧ SameRegisters s s' ∧ s'.tx = none)

/-- The status outputs and the constant ports (the spec's decisions D2, D11, D15). -/
def Obligations.StatusOutputsShowTheRegisters : Prop :=
  ∀ s : State,
    (stRun s = 1#1 ↔ s.run = .running) ∧ (stRun s = 0#1 ↔ s.run = .stopped) ∧
    (stCause s = 0b00#2 ↔ s.cause = .none) ∧ (stCause s = 0b01#2 ↔ s.cause = .quit) ∧
    (stCause s = 0b10#2 ↔ s.cause = .txFatal) ∧ (stCause s = 0b11#2 ↔ s.cause = .inFatal) ∧
    stCnt s = s.cnt ∧ stTrq s = s.trq ∧ txId s = 0x340#11 ∧ txBus s = s.cfg.busIndex ∧
    (txValid s = true ↔ ∃ f, s.tx = some f ∧ txData s = some f.toPort)

/-! ## Steps -/

/-- A step runs the operation its event selects: a tick that of the sampled word, a direct call that of
the FRAME (log 4). Around `exec` a step takes the event off the schedule, lowers the strobes, and at a
tick writes the ports and, while Running, restarts the timer (log 12). -/
def Obligations.StepRunsTheDecodedOperation : Prop :=
  (∀ (p : InPorts) (rest : List Stimulus) (s : State), s.pending = .tick p :: rest → p.rst = false →
    step s = exec (decodeIntentWord p.iw)
      { s with
        pending := rest, tx := none, encOut := none
        rst := false, iw := p.iw, inErr := p.inErr, txErr := p.txErr
        ptimer := if s.run = .running then 0 else s.ptimer }) ∧
  (∀ (f : Frame) (i : Instr) (rest : List Stimulus) (s : State), s.pending = .call f :: rest →
    decodeFrame f = .ok i →
    step s = exec i { s with pending := rest, tx := none, encOut := none })

/-- The operation placed as the next event is the one the decoder reads from its table word, and the
next step runs it (log 3, log 20). -/
def Obligations.PlacedWordIsRunNext : Prop :=
  ∀ (nbits w : Nat) (i : Instr) (s : State), decodeTableWord nbits w = some i →
    step (s.withFetchWord nbits w) =
      if nbits ≤ 8 then
        exec i { s with
          tx := none, encOut := none, rst := false, iw := BitVec.ofNat 4 w, inErr := false
          txErr := false, ptimer := if s.run = .running then 0 else s.ptimer }
      else exec i { s with tx := none, encOut := none }

/-- A direct call (log 4, log 6) of a frame an `ENCODE` produces gives back that very frame and touches
no register, in any loop state; any other 8 bytes are refused by the name of what is wrong. -/
def Obligations.DirectCallReproducesTheFrame : Prop :=
  ∀ (f : Frame) (rest : List Stimulus) (s : State), s.pending = .call f :: rest →
    (Producible f →
      step s = .next { s with pending := rest, tx := none, encOut := some f }) ∧
    (¬Producible f → ∃ e, f.defect = some e ∧ step s = .refused (.notAnEncodeResult e))

/-- `Send` is called at most once in a step, with the constant identifier, the configured bus and one
whole frame built from the counter before the step; a step without it adds nothing to the trace. -/
def Obligations.EachStepSendsAtMostOneFrame : Prop :=
  ∀ s s' : State, step s = .next s' →
    (s'.tx = none ∧ s'.trace = s.trace ∧ s'.cnt = s.cnt) ∨
    (s'.tx = none ∧ AtReset s' ∧ s'.rst = true) ∨
    (∃ f r, s'.tx = some f ∧ s'.trace = s.trace ++ [⟨0x340#11, f, s.cfg.busIndex, r⟩] ∧
      FrameFields s'.trq.toInt s.cnt.toNat (decide (s'.trq ≠ 0#16)) f ∧ s'.cnt = s.cnt + 1#4 ∧
      s.run = .running)

/-- The encoder's lines (the model's own field, log 5) carry the frame a step hands over, and otherwise
nothing but the frame of a direct call. -/
def Obligations.EncoderLinesCarryTheEmittedFrame : Prop :=
  ∀ s s' : State, step s = .next s' →
    s'.encOut = s'.tx ∨
    (s'.tx = none ∧ ∃ f rest, s.pending = .call f :: rest ∧ s'.encOut = some f)

/-- Inside a run the counter is never reset: a step keeps it, or advances it from 15 to 0 or by one,
and then a frame was handed over. -/
def Obligations.CounterIsNeverResetInARun : Prop :=
  ∀ s s' : State, step s = .next s' →
    (s'.rst = true ∧ AtReset s') ∨ s'.cnt = s.cnt ∨
    (s'.tx ≠ none ∧ s'.cnt.toNat = if s.cnt.toNat = 15 then 0 else s.cnt.toNat + 1)

/-! ## The reference timer -/

/-- One clock edge of the reference timer (the spec's decision D16): the last cycle of a period is a
tick, any other cycle of a Running block only counts, Stopped does not count. -/
def Obligations.ClockEdgeCountsOrTicks : Prop :=
  ∀ (p : InPorts) (rest : List Stimulus) (s : State), s.pending = .edge p :: rest → p.rst = false →
    (s.run = .running → s.ptimer = s.cfg.periodCycles - 1 →
      step s = step { s with pending := .tick p :: rest }) ∧
    (s.run = .running → s.ptimer ≠ s.cfg.periodCycles - 1 →
      ∃ s', step s = .next s' ∧ s'.ptimer = s.ptimer + 1 ∧ s'.run = .running ∧
        s'.cause = s.cause ∧ s'.cnt = s.cnt ∧ s'.trq = s.trq ∧ s'.failc = s.failc ∧
        s'.trace = s.trace ∧ s'.tx = none) ∧
    (s.run = .stopped → ∃ s', step s = .next s' ∧ SameRegisters s s' ∧ s'.tx = none)

/-- Ticks are exactly `PERIOD_CYCLES` cycles apart (the spec's decision D16): from the start of a period
that many edges are one tick with the inputs of the last of them, and fewer emit nothing. -/
def Obligations.TicksAreOnePeriodApart : Prop :=
  ∀ (s : State) (ps : List InPorts) (rest : List Stimulus),
    s.run = .running → s.ptimer = 0 → (∀ p ∈ ps, p.rst = false) →
    s.pending = ps.map Stimulus.edge ++ rest →
    (ps.length < s.cfg.periodCycles → ∃ s', runSteps ps.length s = .next s' ∧
      s'.ptimer = ps.length ∧ s'.run = .running ∧ s'.cause = s.cause ∧ s'.cnt = s.cnt ∧
      s'.trq = s.trq ∧ s'.failc = s.failc ∧ s'.trace = s.trace) ∧
    (ps.length = s.cfg.periodCycles → ∃ p, ps.getLast? = some p ∧
      runSteps ps.length s = step { s with pending := .tick p :: rest })

/-! ## Invariants -/

/-- Every step keeps the invariant, whatever the environment does. -/
def Obligations.EveryStepKeepsTheInvariant : Prop :=
  ∀ s s' : State, Inv s → step s = .next s' → Inv s'

/-- The reset state has the invariant, and so has every state a start-up releases. -/
def Obligations.ResetHasTheInvariant : Prop :=
  Inv State.reset ∧ ∀ (l : Startup) (s : State), release l = some s → Inv s

/-- In every reachable state the register invariants that 10_state.md lists hold (derived by the spec;
the clause that Stopped is frozen is `OnlyResetLeavesStopped` and `StoppedIsTerminal`). Runs whose
configuration changes in Stopped are not among them (log 28). -/
def Obligations.ReachableStatesHaveTheListedInvariants : Prop :=
  ∀ s : State, Reachable s → RegisterInvariants s

/-- The `k`-th frame since reset carries counter `k mod 16`, whatever the intents, the hold policy and
the answers; ticks that emit nothing consume no value. -/
def Obligations.EmittedCountersRunModulo16 : Prop :=
  ∀ s : State, Reachable s →
    (∀ (k : Nat) (e : SendEvent), s.trace[k]? = some e → (e.frame.b0 >>> 4).toNat = k % 16) ∧
    s.cnt.toNat = s.trace.length % 16

/-- In every frame of a run the request flag is set exactly when the magnitude is not zero. -/
def Obligations.RequestFlagIsCoupledToTheTorque : Prop :=
  ∀ s : State, Reachable s → ∀ e ∈ s.trace, Coupled e.frame ∧ Producible e.frame ∧
    e.identifier = 0x340#11

/-! ## Runs -/

/-- Stopped is terminal: through any number of events without reset no register moves and nothing is
sent. -/
def Obligations.StoppedIsTerminal : Prop :=
  ∀ (n : Nat) (s s' : State), s.run = .stopped → n ≤ s.pending.length →
    (∀ x ∈ s.pending, assertsReset x = false) → runSteps n s = .next s' → SameRegisters s s'

/-- The safe default (derived by the spec): from a start-up, ticks without an intent or with a reserved
one emit only zero-torque, request-off frames, under both hold policies and any answers. -/
def Obligations.IdleRunsEmitOnlySafeFrames : Prop :=
  ∀ (l : Startup) (s : State) (xs : List Stimulus), release l = some s →
    (∀ x ∈ xs, idleTick x = true ∨ reservedTick x = true) →
    ∃ s', runSteps xs.length { s with pending := xs } = .next s' ∧ s'.trq = 0#16 ∧
      (∀ (k : Nat) (e : SendEvent), s'.trace[k]? = some e → IdleFrame k e.frame) ∧
      ((∀ x ∈ xs, answersOk x = true) → s'.trace.length = xs.length ∧ s'.run = .running)

/-- A latched torque has no time-out: while no intent arrives, every frame repeats it under
`latchLastValue`, and every frame is a zero-torque one under `neutralOnNoInput`. -/
def Obligations.LatchedTorqueHasNoTimeOut : Prop :=
  ∀ (s : State) (xs : List Stimulus), s.run = .running →
    (∀ x ∈ xs, idleTick x = true ∧ answersOk x = true) →
    ∃ s', runSteps xs.length { s with pending := xs } = .next s' ∧ s'.run = .running ∧
      s'.trace.length = s.trace.length + xs.length ∧
      (s.cfg.holdPolicy = .latchLastValue → s'.trq = s.trq ∧
        ∀ (k : Nat) (e : SendEvent), s'.trace[s.trace.length + k]? = some e →
          FrameFields s.trq.toInt (s.cnt.toNat + k) (decide (s.trq ≠ 0#16)) e.frame) ∧
      (s.cfg.holdPolicy = .neutralOnNoInput → (xs ≠ [] → s'.trq = 0#16) ∧
        ∀ (k : Nat) (e : SendEvent), s'.trace[s.trace.length + k]? = some e →
          IdleFrame (s.cnt.toNat + k) e.frame)

/-- Escalation (the spec's decision D10): with no failure counted, fewer than `txFailLimit` failing
ticks in a row leave the block Running and exactly that many stop it with TX_FATAL; every one of the
frames was handed over. -/
def Obligations.ConsecutiveFailuresEscalate : Prop :=
  ∀ (s : State) (xs : List Stimulus), s.run = .running → s.failc = 0 →
    (∀ x ∈ xs, failingTick x = true) → xs.length ≤ s.cfg.txFailLimit →
    ∃ s', runSteps xs.length { s with pending := xs } = .next s' ∧ s'.failc = xs.length ∧
      s'.trace.length = s.trace.length + xs.length ∧
      (xs.length < s.cfg.txFailLimit → s'.run = .running) ∧
      (xs.length = s.cfg.txFailLimit → s'.run = .stopped ∧ s'.cause = .txFatal)

/-- Ignored bits never matter: two runs whose ticks differ in CODE without VALID, or in which neutral
or reserved code they present, leave the same registers and send the same frames. -/
def Obligations.IgnoredIntentBitsNeverMatter : Prop :=
  ∀ (ps qs : List InPorts) (s a b : State), List.Forall₂ SameButIgnoredBits ps qs →
    runSteps ps.length { s with pending := ps.map Stimulus.tick } = .next a →
    runSteps qs.length { s with pending := qs.map Stimulus.tick } = .next b →
    SameRegisters a b ∧ a.tx = b.tx
end

