-- ==== Sys2Proof/Laws/Encoder.lean ====
section
/-! SUPPORT. What the frame encoder can do, said once: its fields as numbers. -/

namespace Sys2Proof.Machine

/-- The clamped torque has the clamped magnitude. -/
theorem clampTorque_natAbs (t : Int) : (clampTorque t).natAbs = min 1023 t.natAbs := by
  unfold clampTorque steerMax; omega

/-- Clamping keeps the sign. -/
theorem signFlag_clampTorque (t : Int) : signFlag (clampTorque t) = decide (t < 0) := by
  unfold signFlag clampTorque steerMax
  exact decide_eq_decide.mpr (by omega)

/-- Byte 0 as a number. -/
theorem byte0_toNat (c : Nat) (r : Bool) :
    (byte0 c r).toNat = 16 * (c % 16) + (if r then 1 else 0) := by
  have hm : c &&& 0xF = c % 16 := Nat.and_two_pow_sub_one_eq_mod c 4
  have hlt : c % 16 < 16 := Nat.mod_lt _ (by decide)
  unfold byte0
  rw [hm]
  generalize c % 16 = k at hlt
  interval_cases k <;> cases r <;> rfl

/-- Byte 2 as a number. -/
theorem byte2_toNat (m : Nat) (sign : Bool) (hm : m ≤ 1023) :
    (byte2 m sign).toNat = (if sign then 8 else 0) + m / 256 := by
  have hs : m >>> 8 = m / 256 := Nat.shiftRight_eq_div_pow m 8
  unfold byte2
  rw [hs]
  have hlt : m / 256 < 4 := by omega
  generalize m / 256 = k at hlt
  interval_cases k <;> cases sign <;> rfl

/-- Byte 3 as a number. -/
theorem byte3_toNat (m : Nat) : (byte3 m).toNat = m % 256 := by
  have hm : m &&& 0xFF = m % 256 := Nat.and_two_pow_sub_one_eq_mod m 8
  unfold byte3
  rw [hm, BitVec.toNat_ofNat]
  omega

/-- The checksum byte as a number. -/
theorem checksum_toNat (n : Nat) : (checksum n).toNat = (256 - n % 256) % 256 := by
  unfold checksum
  rw [BitVec.toNat_ofNat]
  omega

/-- Everything `encodeFrame` can do: for every integer torque and natural counter its frame has the
fields of 30_encoding.md R70 to R76. -/
theorem encodeFrame_fields (t : Int) (c : Nat) (r : Bool) : FrameFields t c r (encodeFrame t c r) := by
  have hs : (byte2 (magnitudeOf (clampTorque t)) (signFlag (clampTorque t))).toNat =
      (if t < 0 then 8 else 0) + min 1023 t.natAbs / 256 := by
    rw [byte2_toNat _ _ (by rw [magnitudeOf, clampTorque_natAbs]; omega), magnitudeOf,
      clampTorque_natAbs, signFlag_clampTorque]
    simp only [decide_eq_true_eq]
  have h3 : (byte3 (magnitudeOf (clampTorque t))).toNat = min 1023 t.natAbs % 256 := by
    rw [byte3_toNat, magnitudeOf, clampTorque_natAbs]
  refine ⟨byte0_toNat c r, rfl, hs, h3, rfl, rfl, rfl, ?_⟩
  simp only [encodeFrame, closeFrame, checksum_toNat, Frame.sum7, BitVec.toNat_ofNat]
  omega

/-- The fields determine the frame. -/
theorem FrameFields.unique {t : Int} {c : Nat} {r : Bool} {f g : Frame}
    (hf : FrameFields t c r f) (hg : FrameFields t c r g) : f = g := by
  obtain ⟨f0, f1, f2, f3, f4, f5, f6, f7⟩ := hf
  obtain ⟨g0, g1, g2, g3, g4, g5, g6, g7⟩ := hg
  have e0 : f.b0 = g.b0 := BitVec.eq_of_toNat_eq (f0.trans g0.symm)
  have e2 : f.b2 = g.b2 := BitVec.eq_of_toNat_eq (f2.trans g2.symm)
  have e3 : f.b3 = g.b3 := BitVec.eq_of_toNat_eq (f3.trans g3.symm)
  have e7 : f.b7 = g.b7 := BitVec.eq_of_toNat_eq (by rw [f7, g7, e0, e2, e3])
  cases f; cases g
  simp_all

end Sys2Proof.Machine
end

