-- ==== Sys2Proof/Laws/State.lean ====
section
/-! SUPPORT. One lemma per field per shared update of State, true by unfolding once, so that no later
proof unfolds a record update. -/

namespace Sys2Proof.Machine

/-! ## `stop` -/

@[simp] theorem stop_run (c : Cause) (s : State) : (stop c s).run = .stopped := rfl
@[simp] theorem stop_cause (c : Cause) (s : State) : (stop c s).cause = c := rfl
@[simp] theorem stop_cnt (c : Cause) (s : State) : (stop c s).cnt = s.cnt := rfl
@[simp] theorem stop_trq (c : Cause) (s : State) : (stop c s).trq = s.trq := rfl
@[simp] theorem stop_failc (c : Cause) (s : State) : (stop c s).failc = s.failc := rfl
@[simp] theorem stop_ptimer (c : Cause) (s : State) : (stop c s).ptimer = s.ptimer := rfl
@[simp] theorem stop_cfg (c : Cause) (s : State) : (stop c s).cfg = s.cfg := rfl
@[simp] theorem stop_rst (c : Cause) (s : State) : (stop c s).rst = s.rst := rfl
@[simp] theorem stop_iw (c : Cause) (s : State) : (stop c s).iw = s.iw := rfl
@[simp] theorem stop_inErr (c : Cause) (s : State) : (stop c s).inErr = s.inErr := rfl
@[simp] theorem stop_txErr (c : Cause) (s : State) : (stop c s).txErr = s.txErr := rfl
@[simp] theorem stop_tx (c : Cause) (s : State) : (stop c s).tx = s.tx := rfl
@[simp] theorem stop_encOut (c : Cause) (s : State) : (stop c s).encOut = s.encOut := rfl
@[simp] theorem stop_trace (c : Cause) (s : State) : (stop c s).trace = s.trace := rfl
@[simp] theorem stop_pending (c : Cause) (s : State) : (stop c s).pending = s.pending := rfl
@[simp] theorem stop_freeStep (c : Cause) (s : State) : (stop c s).freeStep = s.freeStep := rfl

/-! ## `raise` -/

@[simp] theorem raise_run (e : Exception) (s : State) : (raise e s).run = .stopped := rfl
@[simp] theorem raise_cause (e : Exception) (s : State) : (raise e s).cause = causeOf e := rfl
@[simp] theorem raise_cnt (e : Exception) (s : State) : (raise e s).cnt = s.cnt := rfl
@[simp] theorem raise_trq (e : Exception) (s : State) : (raise e s).trq = s.trq := rfl
@[simp] theorem raise_failc (e : Exception) (s : State) : (raise e s).failc = s.failc := rfl
@[simp] theorem raise_ptimer (e : Exception) (s : State) : (raise e s).ptimer = s.ptimer := rfl
@[simp] theorem raise_cfg (e : Exception) (s : State) : (raise e s).cfg = s.cfg := rfl
@[simp] theorem raise_rst (e : Exception) (s : State) : (raise e s).rst = s.rst := rfl
@[simp] theorem raise_iw (e : Exception) (s : State) : (raise e s).iw = s.iw := rfl
@[simp] theorem raise_inErr (e : Exception) (s : State) : (raise e s).inErr = s.inErr := rfl
@[simp] theorem raise_txErr (e : Exception) (s : State) : (raise e s).txErr = s.txErr := rfl
@[simp] theorem raise_tx (e : Exception) (s : State) : (raise e s).tx = s.tx := rfl
@[simp] theorem raise_encOut (e : Exception) (s : State) : (raise e s).encOut = s.encOut := rfl
@[simp] theorem raise_trace (e : Exception) (s : State) : (raise e s).trace = s.trace := rfl
@[simp] theorem raise_pending (e : Exception) (s : State) : (raise e s).pending = s.pending := rfl
@[simp] theorem raise_freeStep (e : Exception) (s : State) : (raise e s).freeStep = s.freeStep := rfl

/-! ## `doReset` -/

@[simp] theorem doReset_run (s : State) : (doReset s).run = .running := rfl
@[simp] theorem doReset_cause (s : State) : (doReset s).cause = .none := rfl
@[simp] theorem doReset_cnt (s : State) : (doReset s).cnt = 0#4 := rfl
@[simp] theorem doReset_trq (s : State) : (doReset s).trq = 0#16 := rfl
@[simp] theorem doReset_failc (s : State) : (doReset s).failc = 0 := rfl
@[simp] theorem doReset_ptimer (s : State) : (doReset s).ptimer = 0 := rfl
@[simp] theorem doReset_cfg (s : State) : (doReset s).cfg = s.cfg := rfl
@[simp] theorem doReset_rst (s : State) : (doReset s).rst = s.rst := rfl
@[simp] theorem doReset_iw (s : State) : (doReset s).iw = s.iw := rfl
@[simp] theorem doReset_inErr (s : State) : (doReset s).inErr = s.inErr := rfl
@[simp] theorem doReset_txErr (s : State) : (doReset s).txErr = s.txErr := rfl
@[simp] theorem doReset_tx (s : State) : (doReset s).tx = none := rfl
@[simp] theorem doReset_encOut (s : State) : (doReset s).encOut = none := rfl
@[simp] theorem doReset_trace (s : State) : (doReset s).trace = [] := rfl
@[simp] theorem doReset_pending (s : State) : (doReset s).pending = s.pending := rfl
@[simp] theorem doReset_freeStep (s : State) : (doReset s).freeStep = s.freeStep := rfl

/-! ## `driveEncoder` -/

@[simp] theorem driveEncoder_run (t : Int) (c : Nat) (r : Bool) (s : State) : (driveEncoder t c r s).run = s.run := rfl
@[simp] theorem driveEncoder_cause (t : Int) (c : Nat) (r : Bool) (s : State) : (driveEncoder t c r s).cause = s.cause := rfl
@[simp] theorem driveEncoder_cnt (t : Int) (c : Nat) (r : Bool) (s : State) : (driveEncoder t c r s).cnt = s.cnt := rfl
@[simp] theorem driveEncoder_trq (t : Int) (c : Nat) (r : Bool) (s : State) : (driveEncoder t c r s).trq = s.trq := rfl
@[simp] theorem driveEncoder_failc (t : Int) (c : Nat) (r : Bool) (s : State) : (driveEncoder t c r s).failc = s.failc := rfl
@[simp] theorem driveEncoder_ptimer (t : Int) (c : Nat) (r : Bool) (s : State) : (driveEncoder t c r s).ptimer = s.ptimer := rfl
@[simp] theorem driveEncoder_cfg (t : Int) (c : Nat) (r : Bool) (s : State) : (driveEncoder t c r s).cfg = s.cfg := rfl
@[simp] theorem driveEncoder_rst (t : Int) (c : Nat) (r : Bool) (s : State) : (driveEncoder t c r s).rst = s.rst := rfl
@[simp] theorem driveEncoder_iw (t : Int) (c : Nat) (r : Bool) (s : State) : (driveEncoder t c r s).iw = s.iw := rfl
@[simp] theorem driveEncoder_inErr (t : Int) (c : Nat) (r : Bool) (s : State) : (driveEncoder t c r s).inErr = s.inErr := rfl
@[simp] theorem driveEncoder_txErr (t : Int) (c : Nat) (r : Bool) (s : State) : (driveEncoder t c r s).txErr = s.txErr := rfl
@[simp] theorem driveEncoder_tx (t : Int) (c : Nat) (r : Bool) (s : State) : (driveEncoder t c r s).tx = s.tx := rfl
@[simp] theorem driveEncoder_encOut (t : Int) (c : Nat) (r : Bool) (s : State) : (driveEncoder t c r s).encOut = some (encodeFrame t c r) := rfl
@[simp] theorem driveEncoder_trace (t : Int) (c : Nat) (r : Bool) (s : State) : (driveEncoder t c r s).trace = s.trace := rfl
@[simp] theorem driveEncoder_pending (t : Int) (c : Nat) (r : Bool) (s : State) : (driveEncoder t c r s).pending = s.pending := rfl
@[simp] theorem driveEncoder_freeStep (t : Int) (c : Nat) (r : Bool) (s : State) : (driveEncoder t c r s).freeStep = s.freeStep := rfl

/-! ## `send` -/

@[simp] theorem send_run (f : Frame) (s : State) : (send f s).run = s.run := rfl
@[simp] theorem send_cause (f : Frame) (s : State) : (send f s).cause = s.cause := rfl
@[simp] theorem send_cnt (f : Frame) (s : State) : (send f s).cnt = s.cnt := rfl
@[simp] theorem send_trq (f : Frame) (s : State) : (send f s).trq = s.trq := rfl
@[simp] theorem send_failc (f : Frame) (s : State) : (send f s).failc = s.failc := rfl
@[simp] theorem send_ptimer (f : Frame) (s : State) : (send f s).ptimer = s.ptimer := rfl
@[simp] theorem send_cfg (f : Frame) (s : State) : (send f s).cfg = s.cfg := rfl
@[simp] theorem send_rst (f : Frame) (s : State) : (send f s).rst = s.rst := rfl
@[simp] theorem send_iw (f : Frame) (s : State) : (send f s).iw = s.iw := rfl
@[simp] theorem send_inErr (f : Frame) (s : State) : (send f s).inErr = s.inErr := rfl
@[simp] theorem send_txErr (f : Frame) (s : State) : (send f s).txErr = s.txErr := rfl
@[simp] theorem send_tx (f : Frame) (s : State) : (send f s).tx = some f := rfl
@[simp] theorem send_encOut (f : Frame) (s : State) : (send f s).encOut = s.encOut := rfl
@[simp] theorem send_trace (f : Frame) (s : State) : (send f s).trace = s.trace ++ [⟨commandId, f, s.cfg.busIndex, txAnswer s⟩] := rfl
@[simp] theorem send_pending (f : Frame) (s : State) : (send f s).pending = s.pending := rfl
@[simp] theorem send_freeStep (f : Frame) (s : State) : (send f s).freeStep = s.freeStep := rfl

/-! ## `lowerStrobes` -/

@[simp] theorem lowerStrobes_run (s : State) : (lowerStrobes s).run = s.run := rfl
@[simp] theorem lowerStrobes_cause (s : State) : (lowerStrobes s).cause = s.cause := rfl
@[simp] theorem lowerStrobes_cnt (s : State) : (lowerStrobes s).cnt = s.cnt := rfl
@[simp] theorem lowerStrobes_trq (s : State) : (lowerStrobes s).trq = s.trq := rfl
@[simp] theorem lowerStrobes_failc (s : State) : (lowerStrobes s).failc = s.failc := rfl
@[simp] theorem lowerStrobes_ptimer (s : State) : (lowerStrobes s).ptimer = s.ptimer := rfl
@[simp] theorem lowerStrobes_cfg (s : State) : (lowerStrobes s).cfg = s.cfg := rfl
@[simp] theorem lowerStrobes_rst (s : State) : (lowerStrobes s).rst = s.rst := rfl
@[simp] theorem lowerStrobes_iw (s : State) : (lowerStrobes s).iw = s.iw := rfl
@[simp] theorem lowerStrobes_inErr (s : State) : (lowerStrobes s).inErr = s.inErr := rfl
@[simp] theorem lowerStrobes_txErr (s : State) : (lowerStrobes s).txErr = s.txErr := rfl
@[simp] theorem lowerStrobes_tx (s : State) : (lowerStrobes s).tx = none := rfl
@[simp] theorem lowerStrobes_encOut (s : State) : (lowerStrobes s).encOut = none := rfl
@[simp] theorem lowerStrobes_trace (s : State) : (lowerStrobes s).trace = s.trace := rfl
@[simp] theorem lowerStrobes_pending (s : State) : (lowerStrobes s).pending = s.pending := rfl
@[simp] theorem lowerStrobes_freeStep (s : State) : (lowerStrobes s).freeStep = s.freeStep := rfl

/-! ## `present` -/

@[simp] theorem present_run (p : InPorts) (s : State) : (present p s).run = s.run := rfl
@[simp] theorem present_cause (p : InPorts) (s : State) : (present p s).cause = s.cause := rfl
@[simp] theorem present_cnt (p : InPorts) (s : State) : (present p s).cnt = s.cnt := rfl
@[simp] theorem present_trq (p : InPorts) (s : State) : (present p s).trq = s.trq := rfl
@[simp] theorem present_failc (p : InPorts) (s : State) : (present p s).failc = s.failc := rfl
@[simp] theorem present_ptimer (p : InPorts) (s : State) : (present p s).ptimer = s.ptimer := rfl
@[simp] theorem present_cfg (p : InPorts) (s : State) : (present p s).cfg = s.cfg := rfl
@[simp] theorem present_rst (p : InPorts) (s : State) : (present p s).rst = p.rst := rfl
@[simp] theorem present_iw (p : InPorts) (s : State) : (present p s).iw = p.iw := rfl
@[simp] theorem present_inErr (p : InPorts) (s : State) : (present p s).inErr = p.inErr := rfl
@[simp] theorem present_txErr (p : InPorts) (s : State) : (present p s).txErr = p.txErr := rfl
@[simp] theorem present_tx (p : InPorts) (s : State) : (present p s).tx = s.tx := rfl
@[simp] theorem present_encOut (p : InPorts) (s : State) : (present p s).encOut = s.encOut := rfl
@[simp] theorem present_trace (p : InPorts) (s : State) : (present p s).trace = s.trace := rfl
@[simp] theorem present_pending (p : InPorts) (s : State) : (present p s).pending = s.pending := rfl
@[simp] theorem present_freeStep (p : InPorts) (s : State) : (present p s).freeStep = s.freeStep := rfl

/-! ## `restartTimer` -/

@[simp] theorem restartTimer_run (s : State) : (restartTimer s).run = s.run := by
  unfold restartTimer; split <;> rfl
@[simp] theorem restartTimer_cause (s : State) : (restartTimer s).cause = s.cause := by
  unfold restartTimer; split <;> rfl
@[simp] theorem restartTimer_cnt (s : State) : (restartTimer s).cnt = s.cnt := by
  unfold restartTimer; split <;> rfl
@[simp] theorem restartTimer_trq (s : State) : (restartTimer s).trq = s.trq := by
  unfold restartTimer; split <;> rfl
@[simp] theorem restartTimer_failc (s : State) : (restartTimer s).failc = s.failc := by
  unfold restartTimer; split <;> rfl
@[simp] theorem restartTimer_ptimer (s : State) :
    (restartTimer s).ptimer = if s.run = .running then 0 else s.ptimer := by
  unfold restartTimer; split <;> simp [*]
@[simp] theorem restartTimer_cfg (s : State) : (restartTimer s).cfg = s.cfg := by
  unfold restartTimer; split <;> rfl
@[simp] theorem restartTimer_rst (s : State) : (restartTimer s).rst = s.rst := by
  unfold restartTimer; split <;> rfl
@[simp] theorem restartTimer_iw (s : State) : (restartTimer s).iw = s.iw := by
  unfold restartTimer; split <;> rfl
@[simp] theorem restartTimer_inErr (s : State) : (restartTimer s).inErr = s.inErr := by
  unfold restartTimer; split <;> rfl
@[simp] theorem restartTimer_txErr (s : State) : (restartTimer s).txErr = s.txErr := by
  unfold restartTimer; split <;> rfl
@[simp] theorem restartTimer_tx (s : State) : (restartTimer s).tx = s.tx := by
  unfold restartTimer; split <;> rfl
@[simp] theorem restartTimer_encOut (s : State) : (restartTimer s).encOut = s.encOut := by
  unfold restartTimer; split <;> rfl
@[simp] theorem restartTimer_trace (s : State) : (restartTimer s).trace = s.trace := by
  unfold restartTimer; split <;> rfl
@[simp] theorem restartTimer_pending (s : State) : (restartTimer s).pending = s.pending := by
  unfold restartTimer; split <;> rfl
@[simp] theorem restartTimer_freeStep (s : State) : (restartTimer s).freeStep = s.freeStep := by
  unfold restartTimer; split <;> rfl

/-! ## `countAnswer` -/

@[simp] theorem countAnswer_run (s : State) :
    (countAnswer s).run =
      if s.txErr = true ∧ s.cfg.txFailLimit ≤ s.failc + 1 then .stopped else s.run := by
  unfold countAnswer txAnswer; cases s.txErr <;> simp; split <;> rfl
@[simp] theorem countAnswer_cause (s : State) :
    (countAnswer s).cause =
      if s.txErr = true ∧ s.cfg.txFailLimit ≤ s.failc + 1 then .txFatal else s.cause := by
  unfold countAnswer txAnswer; cases s.txErr <;> simp; split <;> rfl
@[simp] theorem countAnswer_cnt (s : State) : (countAnswer s).cnt = s.cnt := by
  unfold countAnswer txAnswer; cases s.txErr <;> simp; split <;> rfl
@[simp] theorem countAnswer_trq (s : State) : (countAnswer s).trq = s.trq := by
  unfold countAnswer txAnswer; cases s.txErr <;> simp; split <;> rfl
@[simp] theorem countAnswer_failc (s : State) :
    (countAnswer s).failc = if s.txErr then s.failc + 1 else 0 := by
  unfold countAnswer txAnswer; cases s.txErr <;> simp; split <;> rfl
@[simp] theorem countAnswer_ptimer (s : State) : (countAnswer s).ptimer = s.ptimer := by
  unfold countAnswer txAnswer; cases s.txErr <;> simp; split <;> rfl
@[simp] theorem countAnswer_cfg (s : State) : (countAnswer s).cfg = s.cfg := by
  unfold countAnswer txAnswer; cases s.txErr <;> simp; split <;> rfl
@[simp] theorem countAnswer_rst (s : State) : (countAnswer s).rst = s.rst := by
  unfold countAnswer txAnswer; cases s.txErr <;> simp; split <;> rfl
@[simp] theorem countAnswer_iw (s : State) : (countAnswer s).iw = s.iw := by
  unfold countAnswer txAnswer; cases s.txErr <;> simp; split <;> rfl
@[simp] theorem countAnswer_inErr (s : State) : (countAnswer s).inErr = s.inErr := by
  unfold countAnswer txAnswer; cases s.txErr <;> simp; split <;> rfl
@[simp] theorem countAnswer_txErr (s : State) : (countAnswer s).txErr = s.txErr := by
  unfold countAnswer txAnswer; cases s.txErr <;> simp; split <;> rfl
@[simp] theorem countAnswer_tx (s : State) : (countAnswer s).tx = s.tx := by
  unfold countAnswer txAnswer; cases s.txErr <;> simp; split <;> rfl
@[simp] theorem countAnswer_encOut (s : State) : (countAnswer s).encOut = s.encOut := by
  unfold countAnswer txAnswer; cases s.txErr <;> simp; split <;> rfl
@[simp] theorem countAnswer_trace (s : State) : (countAnswer s).trace = s.trace := by
  unfold countAnswer txAnswer; cases s.txErr <;> simp; split <;> rfl
@[simp] theorem countAnswer_pending (s : State) : (countAnswer s).pending = s.pending := by
  unfold countAnswer txAnswer; cases s.txErr <;> simp; split <;> rfl
@[simp] theorem countAnswer_freeStep (s : State) : (countAnswer s).freeStep = s.freeStep := by
  unfold countAnswer txAnswer; cases s.txErr <;> simp; split <;> rfl

/-- The policy a strap bit of 0 codes (10_state.md R29). -/
theorem holdPolicy_of_bit_zero {c : CfgPins} (h : c.holdPolicyBit = 0#1) :
    c.holdPolicy = .latchLastValue := if_pos h

/-- The policy a strap bit of 1 codes (10_state.md R29). -/
theorem holdPolicy_of_bit_one {c : CfgPins} (h : c.holdPolicyBit = 1#1) :
    c.holdPolicy = .neutralOnNoInput := by
  simp [CfgPins.holdPolicy, h]

end Sys2Proof.Machine
end

