-- ==== Sys2Proof/Laws/Ops.lean ====
section
/-! SUPPORT. For each shared operation, one lemma that says all it can do. -/

namespace Sys2Proof.Machine

/-- What taking an exception does: `run` and `cause`, nothing else. -/
theorem raise_stops (e : Exception) (s : State) : StopsSilently (causeOf e) s (raise e s) :=
  ⟨rfl, rfl, rfl, rfl, rfl, rfl, rfl, rfl, ⟨rfl, rfl, rfl, rfl, rfl, rfl, rfl, rfl⟩⟩

/-- What a stop does: `run` and `cause`, nothing else. -/
theorem stop_stops (c : Cause) (s : State) : StopsSilently c s (stop c s) :=
  ⟨rfl, rfl, rfl, rfl, rfl, rfl, rfl, rfl, ⟨rfl, rfl, rfl, rfl, rfl, rfl, rfl, rfl⟩⟩

/-- What reset does. -/
theorem doReset_atReset (s : State) : AtReset (doReset s) := ⟨rfl, rfl, rfl, rfl, rfl, rfl, rfl⟩

/-- What an emission does. -/
theorem emit_emits (t : Torque) (s : State) : Emits t s (emit t s) where
  sends := ⟨_, encodeFrame_fields t.toInt s.cnt.toNat (requestFlag t), by simp [emit, requestFlag], by
      simp only [emit, countAnswer_trace, send_trace, driveEncoder_trace, driveEncoder_cfg]
      rfl⟩
  cnt := by simp [emit, BitVec.toNat_add]
  trq := by simp [emit]
  failc := by simp [emit]
  stops := by
    by_cases h : s.txErr = true ∧ s.failc + 1 ≥ s.cfg.txFailLimit
    · have h' : s.txErr = true ∧ s.cfg.txFailLimit ≤ s.failc + 1 := h
      simp [emit, h']
    · simp only [emit, countAnswer_run, countAnswer_cause, send_cfg, send_txErr, send_failc,
        driveEncoder_cfg, driveEncoder_txErr, driveEncoder_failc, h, if_false]
      exact ⟨rfl, rfl⟩
  keeps := by constructor <;> simp [emit]

/-- The gate in Stopped (41_control_loop.md R151). -/
theorem tickGate_stopped (op : State → State) {s : State} (h : s.run = .stopped) :
    tickGate op s = s := by
  simp [tickGate, h]

/-- The gate on an input error (60_exceptions.md R178). -/
theorem tickGate_inErr (op : State → State) {s : State} (h : s.run = .running)
    (he : s.inErr = true) : tickGate op s = raise .inputDevice s := by
  simp [tickGate, h, he]

/-- The gate otherwise. -/
theorem tickGate_open (op : State → State) {s : State} (h : s.run = .running)
    (he : s.inErr = false) : tickGate op s = op s := by
  simp [tickGate, h, he]

/-- What the environment's reading can answer. -/
theorem nextStimulus_cases (s : State) :
    (∃ x rest, s.pending = x :: rest ∧ nextStimulus s = (x, { s with pending := rest })) ∨
    (s.pending = [] ∧ nextStimulus s =
      (.tick (Config.freeInputs s.freeStep), { s with freeStep := s.freeStep + 1 })) := by
  unfold nextStimulus
  cases h : s.pending with
  | nil => exact .inr ⟨rfl, rfl⟩
  | cons x rest => exact .inl ⟨x, rest, rfl, rfl⟩

end Sys2Proof.Machine
end

