-- ==== Sys2Proof/Laws/PerInstr.lean ====
section
/-! SUPPORT. Statements for all operations, one lemma per constructor of `Instr`. -/

namespace Sys2Proof.Laws.EncodingLength

/-- An encoding has the fixed length of its format: one byte for an intent word, 8 for a FRAME
(30_encoding.md R79). -/
def Statement (i : Instr) : Prop :=
  (encode i).length = match i with
    | .encode _ _ _ => 8
    | .tNone _ | .tNeutral | .tLeft | .tRight | .tQuit | .tRsvd _ => 1

theorem tNone (code : BitVec 3) : Statement (.tNone code) := rfl

theorem tNeutral : Statement .tNeutral := rfl

theorem tLeft : Statement .tLeft := rfl

theorem tRight : Statement .tRight := rfl

theorem tQuit : Statement .tQuit := rfl

theorem tRsvd (low : BitVec 2) : Statement (.tRsvd low) := rfl

theorem encode (torque : Int) (counter : Nat) (requestActive : Bool) :
    Statement (.encode torque counter requestActive) := rfl

end Sys2Proof.Laws.EncodingLength
end

