-- ==== Sys2Proof/Laws/Step.lean ====
section
/-! SUPPORT. What a tick and a step can do, said once: every invariant is derived from these. -/

namespace Sys2Proof.Machine

/-- The torques a tick of state `s` can emit: zero, the step of either direction, or, latched, the
torque already held (41_control_loop.md R132). -/
def Commands (t : Torque) (s : State) : Prop :=
  t = 0#16 ∨ t = s.cfg.steerStep ∨ t = -s.cfg.steerStep ∨
    (t = s.trq ∧ s.cfg.holdPolicy = .latchLastValue)

/-- The idle torque is a commanded one. -/
theorem idleTorque_commands (s : State) : Commands (idleTorque s) s := by
  unfold idleTorque Commands
  split <;> simp_all

/-- Everything the operation of an intent word can do: it always answers a next state. -/
theorem exec_intentWord_cases (iw : IntentWord) (s : State) :
    ∃ s', exec (decodeIntentWord iw) s = .next s' ∧
      ((s.run = .stopped ∧ s' = s) ∨
       (s.run = .running ∧ s.inErr = true ∧ s' = raise .inputDevice s) ∨
       (s.run = .running ∧ s.inErr = false ∧ iw = 0b1011#4 ∧ s' = stop .quit s) ∨
       (s.run = .running ∧ s.inErr = false ∧ iw ≠ 0b1011#4 ∧ ∃ t, Commands t s ∧ s' = emit t s)) := by
  have hq : decodeIntentWord iw = .tQuit ↔ iw = 0b1011#4 := by revert iw; decide
  have he : ∀ t c r, decodeIntentWord iw ≠ .encode t c r := by
    intro t c r h
    unfold decodeIntentWord at h
    split_ifs at h
  cases hrun : s.run with
  | stopped =>
    refine ⟨s, ?_, .inl ⟨rfl, rfl⟩⟩
    cases hd : decodeIntentWord iw with
    | encode t c r => exact absurd hd (he t c r)
    | _ => exact congrArg _ (tickGate_stopped _ hrun)
  | running =>
    cases herr : s.inErr with
    | true =>
      refine ⟨raise .inputDevice s, ?_, .inr (.inl ⟨rfl, rfl, rfl⟩)⟩
      cases hd : decodeIntentWord iw with
      | encode t c r => exact absurd hd (he t c r)
      | _ => exact congrArg _ (tickGate_inErr _ hrun herr)
    | false =>
      have emits : ∀ t, Commands t s →
          exec (decodeIntentWord iw) s = .next (emit t s) → iw ≠ 0b1011#4 →
          ∃ s', exec (decodeIntentWord iw) s = .next s' ∧ ((RunState.running = .stopped ∧ s' = s) ∨
            (RunState.running = .running ∧ false = true ∧ s' = raise .inputDevice s) ∨
            (RunState.running = .running ∧ false = false ∧ iw = 0b1011#4 ∧ s' = stop .quit s) ∨
            (RunState.running = .running ∧ false = false ∧ iw ≠ 0b1011#4 ∧
              ∃ t, Commands t s ∧ s' = emit t s)) :=
        fun t ht hx hw => ⟨_, hx, .inr (.inr (.inr ⟨rfl, rfl, hw, t, ht, rfl⟩))⟩
      cases hd : decodeIntentWord iw with
      | encode t c r => exact absurd hd (he t c r)
      | tQuit =>
        exact ⟨stop .quit s, congrArg Host.Outcome.next (tickGate_open _ hrun herr),
          .inr (.inr (.inl ⟨rfl, rfl, hq.mp hd, rfl⟩))⟩
      | tNone code =>
        rw [← hd]
        exact emits _ (idleTorque_commands s)
          (by rw [hd]; exact congrArg _ (tickGate_open _ hrun herr)) (fun h => by simp [hq.mpr h] at hd)
      | tNeutral =>
        rw [← hd]
        exact emits neutralTorque (.inl rfl)
          (by rw [hd]; exact congrArg _ (tickGate_open _ hrun herr)) (fun h => by simp [hq.mpr h] at hd)
      | tLeft =>
        rw [← hd]
        exact emits (leftTorque s) (.inr (.inr (.inl rfl)))
          (by rw [hd]; exact congrArg _ (tickGate_open _ hrun herr)) (fun h => by simp [hq.mpr h] at hd)
      | tRight =>
        rw [← hd]
        exact emits (rightTorque s) (.inr (.inl rfl))
          (by rw [hd]; exact congrArg _ (tickGate_open _ hrun herr)) (fun h => by simp [hq.mpr h] at hd)
      | tRsvd low =>
        rw [← hd]
        exact emits neutralTorque (.inl rfl)
          (by rw [hd]; exact congrArg _ (tickGate_open _ hrun herr)) (fun h => by simp [hq.mpr h] at hd)

/-- A direct call runs `ENCODE` or is refused. -/
theorem onCall_cases (f : Frame) (s : State) :
    (∃ e, f.defect = some e ∧ onCall f s = .refused (.notAnEncodeResult e)) ∨
    (f.defect = none ∧ onCall f s = .next (driveEncoder f.torque f.counter f.request s)) := by
  unfold onCall decodeFrame
  cases h : f.defect with
  | some e => exact .inl ⟨e, rfl, rfl⟩
  | none => exact .inr ⟨rfl, rfl⟩

/-- Everything a step can do where it answers a next state: with `x` the event, `r` the state without
it and the strobes low, a reset, a tick, a timer count, an idle edge in Stopped, a configuration, or a
direct call. -/
theorem step_cases {s s' : State} (h : step s = .next s') :
    ∃ x r, nextStimulus s = (x, r) ∧
      ((∃ p, assertsReset x = true ∧ (x = .tick p ∨ x = .edge p) ∧
          s' = doReset (present p (lowerStrobes r))) ∨
       (∃ p, p.rst = false ∧ (x = .tick p ∨ (x = .edge p ∧ s.run = .running)) ∧
          exec (decodeIntentWord p.iw) (sampled p (lowerStrobes r)) = .next s') ∨
       (∃ p, x = .edge p ∧ p.rst = false ∧ s.run = .running ∧ s.ptimer ≠ s.cfg.periodCycles - 1 ∧
          s' = { present p (lowerStrobes r) with ptimer := s.ptimer + 1 }) ∨
       (∃ p, x = .edge p ∧ p.rst = false ∧ s.run = .stopped ∧ s' = present p (lowerStrobes r)) ∨
       (∃ c, x = .straps c ∧ (s.rst = true ∨ s.run = .stopped ∨ c = s.cfg) ∧
          s' = { lowerStrobes r with cfg := c }) ∨
       (∃ f, x = .call f ∧ f.defect = none ∧
          s' = driveEncoder f.torque f.counter f.request (lowerStrobes r))) := by
  have keep : ∀ x r, nextStimulus s = (x, r) →
      r.run = s.run ∧ r.ptimer = s.ptimer ∧ r.cfg = s.cfg ∧ r.rst = s.rst := by
    intro x r hx
    rcases nextStimulus_cases s with ⟨y, rest, -, hn⟩ | ⟨-, hn⟩ <;>
      · rw [hn] at hx
        cases hx
        exact ⟨rfl, rfl, rfl, rfl⟩
  rcases hx : nextStimulus s with ⟨x, r⟩
  obtain ⟨krun, kpt, kcfg, krst⟩ := keep x r hx
  refine ⟨x, r, rfl, ?_⟩
  simp only [step, hx] at h
  cases x with
  | tick p =>
    simp only [onStimulus, onTick] at h
    cases hp : p.rst with
    | true =>
      simp only [hp, if_true, Host.Outcome.next.injEq] at h
      exact .inl ⟨p, hp, .inl rfl, h.symm⟩
    | false =>
      simp only [hp, Bool.false_eq_true, if_false] at h
      exact .inr (.inl ⟨p, hp, .inl rfl, h⟩)
  | edge p =>
    simp only [onStimulus, onEdge, onTick, lowerStrobes_run, lowerStrobes_ptimer,
      lowerStrobes_cfg] at h
    cases hp : p.rst with
    | true =>
      simp only [hp, if_true, Host.Outcome.next.injEq] at h
      exact .inl ⟨p, hp, .inr rfl, h.symm⟩
    | false =>
      simp only [hp, Bool.false_eq_true, if_false] at h
      cases hr : r.run with
      | stopped =>
        simp only [hr, Host.Outcome.next.injEq] at h
        exact .inr (.inr (.inr (.inl ⟨p, rfl, hp, krun ▸ hr, h.symm⟩)))
      | running =>
        simp only [hr] at h
        split at h
        · exact .inr (.inl ⟨p, hp, .inr ⟨rfl, krun ▸ hr⟩, h⟩)
        · rename_i hne
          rw [kpt, kcfg] at hne
          simp only [Host.Outcome.next.injEq, kpt] at h
          exact .inr (.inr (.inl ⟨p, rfl, hp, krun ▸ hr, hne, h.symm⟩))
  | straps c =>
    by_cases hc : (lowerStrobes r).rst = true ∨ (lowerStrobes r).run = .stopped ∨
        c = (lowerStrobes r).cfg
    · rw [onStimulus, onStraps, if_pos hc] at h
      simp only [lowerStrobes_rst, lowerStrobes_run, lowerStrobes_cfg, krst, krun, kcfg] at hc
      exact .inr (.inr (.inr (.inr (.inl ⟨c, rfl, hc, (Host.Outcome.next.inj h).symm⟩))))
    · rw [onStimulus, onStraps, if_neg hc] at h
      cases h
  | call f =>
    simp only [onStimulus] at h
    rcases onCall_cases f (lowerStrobes r) with ⟨e, -, hc⟩ | ⟨hd, hc⟩
    · rw [hc] at h; cases h
    · rw [hc] at h
      exact .inr (.inr (.inr (.inr (.inr ⟨f, rfl, hd, (Host.Outcome.next.inj h).symm⟩))))

end Sys2Proof.Machine
end

