-- ==== Sys2Proof/Laws/Run.lean ====
section
/-! SUPPORT. Runs of several steps. -/

namespace Sys2Proof.Machine

/-- A run begins with its first step. -/
theorem runSteps_next {k : Nat} {s s1 : State} (h : step s = .next s1) :
    runSteps (k + 1) s = runSteps k s1 := by
  rw [runSteps, h]

/-- A run ends at a refusal. -/
theorem runSteps_refused {k : Nat} {s : State} {r : Refusal} (h : step s = .refused r) :
    runSteps (k + 1) s = .refused r := by
  rw [runSteps, h]

/-- A run is the run of the host's core. -/
theorem runSteps_eq_core (k : Nat) (s : State) : runSteps k s = Host.Core.run core k s := by
  induction k generalizing s with
  | zero => rfl
  | succ k ih =>
    refine Eq.trans ?_ (Host.Core.run.eq_2 core s k).symm
    cases h : step s with
    | next s1 =>
      have h' : Host.Core.step core s = .next s1 := h
      rw [runSteps_next h, h']
      exact ih s1
    | fault r => cases r
    | refused r =>
      have h' : Host.Core.step core s = .refused r := h
      rw [runSteps_refused h, h']
      rfl

/-- The first step of a state whose schedule is not empty. -/
theorem step_of_pending {s : State} {x : Stimulus} {rest : List Stimulus}
    (h : s.pending = x :: rest) :
    step s = onStimulus x (lowerStrobes { s with pending := rest }) := by
  unfold step nextStimulus
  rw [h]

end Sys2Proof.Machine
end

