-- ==== Sys2Proof/Tests/Slice0.lean ====
section
/-! SUPPORT. Tests: expected values are the spec's own (30_encoding.md, 95_test_vectors.md), each noted
by its id there; and, for each statement with hypotheses, a witness that meets them all. -/

namespace Sys2Proof.Tests

open Sys2Proof.Machine

/-! ## Helpers -/

/-- A configuration of the test vectors: bus 0, 20 ms, a clock of 200 Hz, so 4 cycles a period. -/
def pins (step : Torque) (policy : HoldPolicy) (limit : Nat) : CfgPins where
  busIndex := 0#8
  steerStep := step
  periodMs := 20
  holdPolicyBit := policy.bit
  txFailLimit := limit
  clkHz := 200
  periodCycles := 4

/-- `steerStep = 300`, `latchLastValue`, `txFailLimit = 1`. -/
def latch300 : Config := { pins 300#16 .latchLastValue 1 with legal := by decide }

/-- `steerStep = 300`, `neutralOnNoInput`, `txFailLimit = 1`. -/
def neutral300 : Config := { pins 300#16 .neutralOnNoInput 1 with legal := by decide }

/-- `steerStep = 200`, `latchLastValue`, `txFailLimit = 3`. -/
def latch200 : Config := { pins 200#16 .latchLastValue 3 with legal := by decide }

/-- A running state of a test: configuration, counter, torque, schedule. -/
def runningAt (c : Config) (cnt : Counter) (trq : Torque) (xs : List Stimulus) : State :=
  { State.reset with cfg := c, cnt := cnt, trq := trq, pending := xs }

/-- A stopped state of a test. -/
def stoppedAt (c : Config) (xs : List Stimulus) : State :=
  { State.reset with cfg := c, run := .stopped, cause := .quit, cnt := 4#4, trq := 300#16, pending := xs }

/-- The inputs of a plain tick with a word. -/
def inputs (iw : IntentWord) : InPorts := { rst := false, iw := iw, inErr := false, txErr := false }

/-- The inputs of a tick whose `Send` fails. -/
def failing (iw : IntentWord) : InPorts := { inputs iw with txErr := true }

/-- The inputs of an event in reset. -/
def resetting : InPorts := { inputs 0b1001#4 with rst := true }

/-- The next state of an outcome. -/
def nextOf : Host.Outcome State Fault Refusal → Option State
  | .next s => some s
  | .fault _ => none
  | .refused _ => none

/-- Frame, counter, torque, loop state and cause after an outcome: a row of 95_test_vectors.md 2.2. -/
def row (o : Host.Outcome State Fault Refusal) :
    Option (Option Frame × Counter × Torque × RunState × Cause) :=
  (nextOf o).map fun s => (s.tx, s.cnt, s.trq, s.run, s.cause)

/-! ## The checks refuse ill-formed terms -/

theorem test_wf_refuses_torque_above : (Instr.encode 1024 0 true).wf = false := by decide

theorem test_wf_refuses_torque_below : (Instr.encode (-1024) 0 true).wf = false := by decide

theorem test_wf_refuses_counter_above : (Instr.encode 0 16 true).wf = false := by decide

/-- U6 -/
theorem test_wf_refuses_step : (pins 0x8000#16 .latchLastValue 1).wf = false := by decide

/-- U7 -/
theorem test_wf_refuses_period : ({ pins 300#16 .latchLastValue 1 with periodMs := 0 }).periodMsOk = false := by
  decide

/-- U10 -/
theorem test_wf_refuses_limit : (pins 300#16 .latchLastValue 0).wf = false := by decide

/-- U7 -/
theorem test_wf_refuses_no_cycles :
    ({ pins 300#16 .latchLastValue 1 with clkHz := 49, periodCycles := 0 }).wf = false := by decide

/-- R12 -/
theorem test_wf_refuses_other_clock :
    ({ pins 300#16 .latchLastValue 1 with clkHz := 100 }).wf = false := by decide

/-! ## Decoding: words written out from the patterns of 30_encoding.md R70, R81, R85 -/

theorem test_decode_none : decode [0b00000111#8] = .ok (.tNone 0b111#3) := by decide

theorem test_decode_neutral : decode [0b00001000#8] = .ok .tNeutral := by decide

theorem test_decode_left : decode [0b00001001#8] = .ok .tLeft := by decide

theorem test_decode_right : decode [0b00001010#8] = .ok .tRight := by decide

theorem test_decode_quit : decode [0b00001011#8] = .ok .tQuit := by decide

theorem test_decode_rsvd : decode [0b00001101#8] = .ok (.tRsvd 0b01#2) := by decide

/-- The decoded example of 95_test_vectors.md 2.1. -/
theorem test_decode_frame :
    decode [0xF1#8, 0x00#8, 0x0B#8, 0xFF#8, 0x00#8, 0x00#8, 0x00#8, 0x05#8] =
      .ok (.encode (-1023) 15 true) := by decide

/-- The three invalid frames of 95_test_vectors.md 2.1. -/
theorem test_decode_refuses_checksum :
    decodeFrame ⟨0x51#8, 0#8, 0x09#8, 0x2C#8, 0#8, 0#8, 0#8, 0x7B#8⟩ = .error .badChecksum := by decide

theorem test_decode_refuses_magnitude :
    decodeFrame ⟨0x51#8, 0#8, 0x0D#8, 0x2C#8, 0#8, 0#8, 0#8, 0x76#8⟩ = .error .magnitudeTooLarge := by
  decide

theorem test_decode_refuses_negative_zero :
    decodeFrame ⟨0#8, 0#8, 0x08#8, 0#8, 0#8, 0#8, 0#8, 0xF8#8⟩ = .error .negativeZero := by decide

theorem test_decode_refuses_reserved :
    decodeFrame ⟨0#8, 0x01#8, 0#8, 0#8, 0#8, 0#8, 0#8, 0xFF#8⟩ = .error .reservedBitSet := by decide

theorem test_decode_refuses_wide_word : decode [0b00010000#8] = .error .intentWordTooWide := by decide

theorem test_decode_refuses_length : decode [0#8, 0#8] = .error .badLength := by decide

/-- The port value of V2. -/
theorem test_port : (encodeFrame (-300) 5 true).toPort = 0x7A0000002C090051#64 := by decide

/-! ## ENCODE -/

/-- E27 -/
theorem test_encode_checksum_zero :
    (nextOf (exec (.encode (-1012) 0 true) State.reset)).map (·.encOut) =
      some (some ⟨0x01#8, 0#8, 0x0B#8, 0xF4#8, 0#8, 0#8, 0#8, 0x00#8⟩) := by decide

/-- E31: the counter keeps its low four bits -/
theorem test_encode_counter_masked :
    encodeFrame 5 21 true = ⟨0x51#8, 0#8, 0x00#8, 0x05#8, 0#8, 0#8, 0#8, 0xAA#8⟩ := by decide

/-! ## Tick operations: T1 to T14 -/

/-- T1 -/
theorem test_neutral : row (exec .tNeutral (runningAt latch300 3#4 (-300 : BitVec 16) [])) =
    some (some ⟨0x30#8, 0#8, 0#8, 0#8, 0#8, 0#8, 0#8, 0xD0#8⟩, 4#4, 0#16, .running, .none) := by decide

/-- T2 -/
theorem test_left : row (exec .tLeft (runningAt latch300 0#4 0#16 [])) =
    some (some ⟨0x01#8, 0#8, 0x09#8, 0x2C#8, 0#8, 0#8, 0#8, 0xCA#8⟩, 1#4, (-300 : BitVec 16), .running, .none) := by
  decide

/-- T13: a negative step makes Left positive -/
theorem test_left_negative_step :
    row (exec .tLeft (runningAt { pins (-300 : BitVec 16) .latchLastValue 1 with legal := by decide } 0#4 0#16 [])) =
    some (some ⟨0x01#8, 0#8, 0x01#8, 0x2C#8, 0#8, 0#8, 0#8, 0xD2#8⟩, 1#4, 300#16, .running, .none) := by
  decide

/-- T10: the counter wraps -/
theorem test_right_wraps : row (exec .tRight (runningAt latch300 15#4 0#16 [])) =
    some (some ⟨0xF1#8, 0#8, 0x01#8, 0x2C#8, 0#8, 0#8, 0#8, 0xE2#8⟩, 0#4, 300#16, .running, .none) := by
  decide

/-- T11: the frame is clamped, `trq` is not -/
theorem test_right_clamps :
    row (exec .tRight (runningAt { pins 2000#16 .latchLastValue 1 with legal := by decide } 1#4 0#16 [])) =
    some (some ⟨0x11#8, 0#8, 0x03#8, 0xFF#8, 0#8, 0#8, 0#8, 0xED#8⟩, 2#4, 2000#16, .running, .none) := by
  decide

/-- T4 -/
theorem test_quit : row (exec .tQuit (runningAt latch300 4#4 300#16 [])) =
    some (none, 4#4, 300#16, .stopped, .quit) := by decide

/-- T5 -/
theorem test_rsvd : row (exec (.tRsvd 0b01#2) (runningAt latch300 0#4 300#16 [])) =
    some (some ⟨0#8, 0#8, 0#8, 0#8, 0#8, 0#8, 0#8, 0#8⟩, 1#4, 0#16, .running, .none) := by decide

/-- T7: CODE is ignored and the torque latched -/
theorem test_none_latches : row (exec (.tNone 0b101#3) (runningAt latch300 1#4 (-300 : BitVec 16) [])) =
    some (some ⟨0x11#8, 0#8, 0x09#8, 0x2C#8, 0#8, 0#8, 0#8, 0xBA#8⟩, 2#4, (-300 : BitVec 16), .running, .none) := by
  decide

/-- T8 -/
theorem test_none_neutral : row (exec (.tNone 0b000#3) (runningAt neutral300 1#4 (-300 : BitVec 16) [])) =
    some (some ⟨0x10#8, 0#8, 0#8, 0#8, 0#8, 0#8, 0#8, 0xF0#8⟩, 2#4, 0#16, .running, .none) := by decide

/-- T14 -/
theorem test_stopped : row (exec .tLeft (stoppedAt latch300 [])) =
    some (none, 4#4, 300#16, .stopped, .quit) := by decide

/-! ## Errors, reset, timer: X1 to X7, 2.4 -/

/-- X1 -/
theorem test_first_failure_fatal :
    row (step (runningAt { pins 200#16 .latchLastValue 1 with legal := by decide } 0#4 0#16
      [.tick (failing 0b1010#4)])) =
    some (some ⟨0x01#8, 0#8, 0#8, 0xC8#8, 0#8, 0#8, 0#8, 0x37#8⟩, 1#4, 200#16, .stopped, .txFatal) := by
  decide

/-- X2 -/
theorem test_failure_survived :
    (nextOf (step (runningAt latch200 0#4 0#16 [.tick (failing 0b1010#4)]))).map
      (fun s => (s.failc, s.run)) = some (1, .running) := by decide

/-- X6: an input error hides a Quit of the same tick -/
theorem test_input_error_hides_quit :
    row (step (runningAt latch200 0#4 0#16 [.tick { inputs 0b1011#4 with inErr := true }])) =
    some (none, 0#4, 0#16, .stopped, .inFatal) := by decide

/-- X7 -/
theorem test_reset_restarts : row (step (stoppedAt latch200 [.tick resetting])) =
    some (none, 0#4, 0#16, .running, .none) := by decide

/-- 2.4: the cycle before the last counts -/
theorem test_edge_counts :
    (nextOf (step { runningAt latch200 0#4 0#16 [.edge (inputs 0b1010#4)] with ptimer := 2 })).map
      (fun s => (s.ptimer, s.tx)) = some (3, none) := by decide

/-- 2.4: the last cycle of a period is the tick -/
theorem test_edge_ticks :
    (nextOf (step { runningAt latch200 0#4 0#16 [.edge (inputs 0b1010#4)] with ptimer := 3 })).map
      (fun s => (s.ptimer, s.cnt)) = some (0, 1#4) := by decide

/-- The table word of `T.LEFT` runs first after reset. -/
theorem test_fetch_after_reset :
    (nextOf (step (State.reset.withFetchWord 8 0b1001))).map (·.cnt) = some 1#4 := by decide

/-- The table word of `ENCODE` runs first after reset. -/
theorem test_fetch_encode_after_reset :
    (nextOf (step (State.reset.withFetchWord 64 0))).map (·.encOut) =
      some (some ⟨0#8, 0#8, 0#8, 0#8, 0#8, 0#8, 0#8, 0#8⟩) := by decide

/-! ## Witnesses: the hypotheses of each statement can be met -/

theorem test_witness_DecodeOfEncodeIsTheInstruction :
    (Instr.encode (-1023) 15 true).wf = true ∧ (Instr.encode 1023 0 false).wf = true ∧
    (Instr.tNone 0b111#3).wf = true := by decide

theorem test_witness_CounterIsTheHighNibbleOfByte0 : (15 : Nat) ≤ 15 ∧ (0 : Nat) ≤ 15 := by decide

theorem test_witness_FrameReadsBackItsOperands : (15 : Nat) ≤ 15 ∧ (0 : Nat) ≤ 15 := by decide

theorem test_witness_EncodeIsInjectiveOnItsDomain :
    ((-1023 : Int) ≤ -1023 ∧ (-1023 : Int) ≤ 1023 ∧ (15 : Nat) ≤ 15 ∧
      encodeFrame (-1023) 15 true = encodeFrame (-1023) 15 true) ∧
    (1023 : Int) ≥ 1023 ∧ (2000 : Int) ≥ 1023 ∧ (-1023 : Int) ≤ -1023 ∧ (-2000 : Int) ≤ -1023 := by decide

/-- E5 is producible, the negative zero is not. -/
theorem test_witness_ProducibleFramesAreTheEncodersRange :
    Producible ⟨0xF1#8, 0#8, 0x0B#8, 0xFF#8, 0#8, 0#8, 0#8, 0x05#8⟩ ∧
    ¬Producible ⟨0#8, 0#8, 0x08#8, 0#8, 0#8, 0#8, 0#8, 0xF8#8⟩ := by unfold Producible; decide

theorem test_witness_AlgorithmAgreesWithTheFrameTable :
    (-1023 : Int) ≤ -1023 ∧ (-1023 : Int) ≤ 1023 ∧ (-1023 : Int) ≤ 1023 ∧ (1023 : Int) ≤ 1023 := by decide

theorem test_witness_NeutralTickEmitsZeroTorque :
    (runningAt latch300 15#4 300#16 []).run = .running ∧
    (runningAt latch300 15#4 300#16 []).inErr = false := by decide

theorem test_witness_LeftTickEmitsTheNegatedStep :
    (runningAt latch300 0#4 0#16 []).run = .running ∧
    (runningAt latch300 0#4 0#16 []).inErr = false := by decide

theorem test_witness_RightTickEmitsTheStep :
    (runningAt latch300 15#4 0#16 []).run = .running ∧
    (runningAt latch300 15#4 0#16 []).inErr = false := by decide

theorem test_witness_ReservedTickActsAsNeutral :
    (runningAt neutral300 0#4 0#16 []).run = .running ∧
    (runningAt neutral300 0#4 0#16 []).inErr = false := by decide

/-- Both clauses: the two hold policies. -/
theorem test_witness_IdleTickFollowsTheHoldPolicy :
    ((runningAt latch300 1#4 300#16 []).run = .running ∧
      (runningAt latch300 1#4 300#16 []).inErr = false ∧
      (runningAt latch300 1#4 300#16 []).cfg.holdPolicy = .latchLastValue) ∧
    ((runningAt neutral300 1#4 300#16 []).run = .running ∧
      (runningAt neutral300 1#4 300#16 []).inErr = false ∧
      (runningAt neutral300 1#4 300#16 []).cfg.holdPolicy = .neutralOnNoInput) := by decide

/-- Both straps. -/
theorem test_witness_HoldPolicyStrapSelectsTheIdleTorque :
    ((runningAt latch300 1#4 300#16 []).run = .running ∧
      (runningAt latch300 1#4 300#16 []).inErr = false ∧
      (runningAt latch300 1#4 300#16 []).cfg.holdPolicyBit = 0#1) ∧
    ((runningAt neutral300 1#4 300#16 []).run = .running ∧
      (runningAt neutral300 1#4 300#16 []).inErr = false ∧
      (runningAt neutral300 1#4 300#16 []).cfg.holdPolicyBit = 1#1) := by decide

theorem test_witness_QuitTickStopsWithoutAFrame :
    (runningAt latch300 4#4 300#16 []).run = .running ∧
    (runningAt latch300 4#4 300#16 []).inErr = false := by decide

/-- Both answers of the mapper occur. -/
theorem test_witness_OperationsFollowTheMapper :
    (runningAt latch300 4#4 300#16 []).run = .running ∧
    (runningAt latch300 4#4 300#16 []).inErr = false ∧
    mapIntent 0b1011#4 300#16 latch300 = .quit ∧ mapIntent 0b0000#4 300#16 latch300 = .torque 300#16 := by
  decide

theorem test_witness_InputErrorStopsTheBlock :
    ({ runningAt latch300 4#4 300#16 [] with inErr := true }).run = .running ∧
    ({ runningAt latch300 4#4 300#16 [] with inErr := true }).inErr = true := by decide

theorem test_witness_StoppedTicksDoNothing : (stoppedAt latch300 []).run = .stopped := by decide

/-- All clauses: Ok; Err one below the limit; Err at the limit. -/
theorem test_witness_TransportAnswersAreCounted :
    (0b1010#4 : IntentWord) ≠ 0b1011#4 ∧ (runningAt latch200 0#4 0#16 []).run = .running ∧
    (runningAt latch200 0#4 0#16 []).inErr = false ∧ (runningAt latch200 0#4 0#16 []).txErr = false ∧
    ({ runningAt latch200 0#4 0#16 [] with txErr := true, failc := 1 }).failc + 1 < latch200.txFailLimit ∧
    latch200.txFailLimit ≤ ({ runningAt latch200 0#4 0#16 [] with txErr := true, failc := 2 }).failc + 1 := by
  decide

theorem test_witness_ResetDominatesEveryEvent :
    (stoppedAt latch200 [.tick resetting]).pending = .tick resetting :: [] ∧
    (stoppedAt latch200 [.edge resetting]).pending = .edge resetting :: [] ∧ resetting.rst = true := by decide

/-- Every branch: reset, Stopped, input error, Quit, emission below and at the limit. -/
theorem test_witness_TickFollowsThePriorityOrder :
    (stoppedAt latch200 [.tick resetting]).pending = .tick resetting :: [] ∧
    (stoppedAt latch200 [.tick (inputs 9#4)]).pending = .tick (inputs 9#4) :: [] ∧
    (runningAt latch200 0#4 0#16 [.tick { inputs 9#4 with inErr := true }]).pending =
      .tick { inputs 9#4 with inErr := true } :: [] ∧
    (runningAt latch200 0#4 0#16 [.tick (inputs 0b1011#4)]).pending = .tick (inputs 0b1011#4) :: [] ∧
    (runningAt latch200 0#4 0#16 [.tick (failing 9#4)]).pending = .tick (failing 9#4) :: [] := by decide

/-- Both clauses: a tick without reset and one with it. -/
theorem test_witness_OnlyResetLeavesStopped :
    (∃ s', step (stoppedAt latch200 [.tick (inputs 9#4)]) = .next s') ∧
    (∃ s', step (stoppedAt latch200 [.tick resetting]) = .next s') ∧
    (stoppedAt latch200 []).run = .stopped := ⟨⟨_, rfl⟩, ⟨_, rfl⟩, rfl⟩

/-- Both clauses: a Quit, and the failure at the limit. -/
theorem test_witness_StopsArePrecise :
    (∃ s', step (runningAt latch300 0#4 0#16 [.tick (inputs 0b1011#4)]) = .next s' ∧
      s'.run = .stopped ∧ s'.cause = .quit) ∧
    (∃ s', step (runningAt latch300 0#4 0#16 [.tick (failing 9#4)]) = .next s' ∧
      s'.run = .stopped ∧ s'.cause = .txFatal) := ⟨⟨_, rfl, rfl, rfl⟩, ⟨_, rfl, rfl, rfl⟩⟩

/-- A start-up that is released and one that is not. -/
theorem test_witness_StartupReleasesResetOrNothing :
    (∃ s, release ⟨true, true, pins 300#16 .latchLastValue 1⟩ = some s) ∧
    release ⟨false, true, pins 300#16 .latchLastValue 1⟩ = none := ⟨⟨_, rfl⟩, rfl⟩

/-- Both clauses: a change inside a run; Stopped, reset, or no change. -/
theorem test_witness_ConfigurationIsStableInARun :
    (runningAt latch300 0#4 0#16 [.straps neutral300]).pending = .straps neutral300 :: [] ∧
    (runningAt latch300 0#4 0#16 []).run = .running ∧ (runningAt latch300 0#4 0#16 []).rst = false ∧
    neutral300 ≠ latch300 ∧ (stoppedAt latch300 []).run = .stopped ∧
    ({ runningAt latch300 0#4 0#16 [] with rst := true }).rst = true := by decide

/-- Both clauses: a tick, and a direct call of E1's frame. -/
theorem test_witness_StepRunsTheDecodedOperation :
    (runningAt latch300 0#4 0#16 [.tick (inputs 9#4)]).pending = .tick (inputs 9#4) :: [] ∧
    (inputs 9#4).rst = false ∧
    decodeFrame ⟨0#8, 0#8, 0#8, 0#8, 0#8, 0#8, 0#8, 0#8⟩ = .ok (.encode 0 0 false) := by decide

/-- Both branches: an intent word and a FRAME. -/
theorem test_witness_PlacedWordIsRunNext :
    decodeTableWord 8 0b1001 = some .tLeft ∧ decodeTableWord 64 0 = some (.encode 0 0 false) := by decide

/-- Both clauses: E5's frame and a frame with a wrong checksum. -/
theorem test_witness_DirectCallReproducesTheFrame :
    Producible ⟨0xF1#8, 0#8, 0x0B#8, 0xFF#8, 0#8, 0#8, 0#8, 0x05#8⟩ ∧
    ¬Producible ⟨0x51#8, 0#8, 0x09#8, 0x2C#8, 0#8, 0#8, 0#8, 0x7B#8⟩ := by unfold Producible; decide

/-- All clauses: a Quit, a reset, an emission. -/
theorem test_witness_EachStepSendsAtMostOneFrame :
    (∃ s', step (runningAt latch300 0#4 0#16 [.tick (inputs 0b1011#4)]) = .next s' ∧ s'.tx = none) ∧
    (∃ s', step (runningAt latch300 3#4 0#16 [.tick resetting]) = .next s' ∧ s'.rst = true) ∧
    (∃ s', step (runningAt latch300 0#4 0#16 [.tick (inputs 9#4)]) = .next s' ∧ s'.tx.isSome = true) :=
  ⟨⟨_, rfl, rfl⟩, ⟨_, rfl, rfl⟩, ⟨_, rfl, rfl⟩⟩

/-- Both clauses: an emission, and a direct call. -/
theorem test_witness_EncoderLinesCarryTheEmittedFrame :
    (∃ s', step (runningAt latch300 3#4 0#16 [.tick (inputs 9#4)]) = .next s' ∧ s'.tx.isSome = true) ∧
    (∃ s', step (stoppedAt latch300 [.call ⟨0#8, 0#8, 0#8, 0#8, 0#8, 0#8, 0#8, 0#8⟩]) = .next s' ∧
      s'.encOut.isSome = true) := ⟨⟨_, rfl, rfl⟩, ⟨_, rfl, rfl⟩⟩

/-- All clauses: reset, no emission, the wrap and a plain advance. -/
theorem test_witness_CounterIsNeverResetInARun :
    (∃ s', step (runningAt latch300 3#4 0#16 [.edge resetting]) = .next s' ∧ s'.rst = true) ∧
    (∃ s', step (runningAt latch300 3#4 0#16 [.edge (inputs 9#4)]) = .next s' ∧ s'.cnt = 3#4) ∧
    (∃ s', step (runningAt latch300 15#4 0#16 [.tick (inputs 9#4)]) = .next s' ∧ s'.cnt = 0#4) ∧
    (∃ s', step (runningAt latch300 3#4 0#16 [.tick (inputs 9#4)]) = .next s' ∧ s'.cnt = 4#4) :=
  ⟨⟨_, rfl, rfl⟩, ⟨_, rfl, rfl⟩, ⟨_, rfl, rfl⟩, ⟨_, rfl, rfl⟩⟩

/-- All clauses: the last cycle, an earlier one, Stopped. -/
theorem test_witness_ClockEdgeCountsOrTicks :
    (runningAt latch200 0#4 0#16 [.edge (inputs 9#4)]).pending = .edge (inputs 9#4) :: [] ∧
    (inputs 9#4).rst = false ∧
    ({ runningAt latch200 0#4 0#16 [] with ptimer := 3 }).ptimer = latch200.periodCycles - 1 ∧
    (runningAt latch200 0#4 0#16 []).ptimer ≠ latch200.periodCycles - 1 ∧
    (stoppedAt latch200 []).run = .stopped := by decide

/-- Both clauses: three edges of a period of four, and four. -/
theorem test_witness_TicksAreOnePeriodApart :
    (runningAt latch200 0#4 0#16 []).run = .running ∧ (runningAt latch200 0#4 0#16 []).ptimer = 0 ∧
    (∀ p ∈ List.replicate 4 (inputs 9#4), p.rst = false) ∧
    (runningAt latch200 0#4 0#16 ((List.replicate 4 (inputs 9#4)).map Stimulus.edge)).pending =
      (List.replicate 4 (inputs 9#4)).map Stimulus.edge ++ [] ∧
    (List.replicate 3 (inputs 9#4)).length < latch200.periodCycles ∧
    (List.replicate 4 (inputs 9#4)).length = latch200.periodCycles := by decide

/-- A state with the invariant, and a step from it: the test start-up's first tick. -/
theorem test_witness_EveryStepKeepsTheInvariant :
    Inv (runningAt latch300 0#4 0#16 [.tick (inputs 9#4)]) ∧
    ∃ s', step (runningAt latch300 0#4 0#16 [.tick (inputs 9#4)]) = .next s' := by
  refine ⟨⟨by decide, by decide, fun _ => .inl rfl, by decide, by decide, ?_, ?_, fun h => by cases h⟩, ⟨_, rfl⟩⟩
  · intro k e h
    exact absurd h (by simp [runningAt, State.reset])
  · intro _ e h
    exact absurd h (by simp [runningAt, State.reset])

theorem test_witness_ResetHasTheInvariant :
    ∃ s, release ⟨true, true, pins 300#16 .latchLastValue 1⟩ = some s := ⟨_, rfl⟩

/-- A start-up with a schedule is reachable. -/
theorem test_witness_reachable_start (xs : List Stimulus) : Reachable (runningAt latch300 0#4 0#16 xs) :=
  .start ⟨true, true, pins 300#16 .latchLastValue 1⟩ { State.reset with cfg := latch300 } xs ⟨rfl, rfl⟩ rfl

/-- A reachable state whose trace holds a frame. -/
theorem test_witness_ReachableStatesHaveTheListedInvariants :
    ∃ s, Reachable s ∧ s.trace.length = 1 :=
  ⟨_, .step _ _ (test_witness_reachable_start [.tick (inputs 9#4)]) rfl (.inl rfl), rfl⟩

theorem test_witness_EmittedCountersRunModulo16 :
    ∃ s, Reachable s ∧ s.trace[0]?.isSome = true :=
  ⟨_, .step _ _ (test_witness_reachable_start [.tick (inputs 9#4)]) rfl (.inl rfl), rfl⟩

theorem test_witness_RequestFlagIsCoupledToTheTorque :
    ∃ s e, Reachable s ∧ e ∈ s.trace :=
  ⟨_, _, .step _ _ (test_witness_reachable_start [.tick (inputs 9#4)]) rfl (.inl rfl),
    List.mem_singleton.mpr rfl⟩

theorem test_witness_StoppedIsTerminal :
    (stoppedAt latch300 [.tick (inputs 9#4)]).run = .stopped ∧
    1 ≤ (stoppedAt latch300 [.tick (inputs 9#4)]).pending.length ∧
    (∀ x ∈ (stoppedAt latch300 [.tick (inputs 9#4)]).pending, assertsReset x = false) ∧
    ∃ s', runSteps 1 (stoppedAt latch300 [.tick (inputs 9#4)]) = .next s' :=
  ⟨rfl, by decide, by decide, _, rfl⟩

/-- Idle and reserved ticks, one of them with a failing `Send`; and ticks that are all answered Ok. -/
theorem test_witness_IdleRunsEmitOnlySafeFrames :
    (∃ s, release ⟨true, true, pins 300#16 .latchLastValue 3⟩ = some s) ∧
    (∀ x ∈ [Stimulus.tick (inputs 0b0101#4), .tick (failing 0b1111#4)],
      idleTick x = true ∨ reservedTick x = true) ∧
    (∀ x ∈ [Stimulus.tick (inputs 0b0101#4)], answersOk x = true) := ⟨⟨_, rfl⟩, by decide, by decide⟩

/-- Both clauses: the two hold policies. -/
theorem test_witness_LatchedTorqueHasNoTimeOut :
    (runningAt latch300 1#4 300#16 []).run = .running ∧ latch300.holdPolicy = .latchLastValue ∧
    (runningAt neutral300 1#4 300#16 []).run = .running ∧ neutral300.holdPolicy = .neutralOnNoInput ∧
    (∀ x ∈ [Stimulus.tick (inputs 0b0101#4)], idleTick x = true ∧ answersOk x = true) := by decide

/-- Both clauses: two failures and three, of a limit of three. -/
theorem test_witness_ConsecutiveFailuresEscalate :
    (runningAt latch200 0#4 0#16 []).run = .running ∧ (runningAt latch200 0#4 0#16 []).failc = 0 ∧
    (∀ x ∈ List.replicate 3 (Stimulus.tick (failing 0b1010#4)), failingTick x = true) ∧
    (List.replicate 2 (Stimulus.tick (failing 0b1010#4))).length < latch200.txFailLimit ∧
    (List.replicate 3 (Stimulus.tick (failing 0b1010#4))).length = latch200.txFailLimit := by decide

/-- Two ticks with other CODE bits, and two with other neutral words. -/
theorem test_witness_IgnoredIntentBitsNeverMatter :
    List.Forall₂ SameButIgnoredBits [inputs 0b0000#4, inputs 0b1000#4] [inputs 0b0111#4, inputs 0b1101#4] ∧
    (∃ a, runSteps 2 (runningAt latch300 0#4 0#16
      ([inputs 0b0000#4, inputs 0b1000#4].map Stimulus.tick)) = .next a) ∧
    (∃ b, runSteps 2 (runningAt latch300 0#4 0#16
      ([inputs 0b0111#4, inputs 0b1101#4].map Stimulus.tick)) = .next b) :=
  ⟨.cons ⟨rfl, rfl, rfl, .inr (.inl ⟨rfl, rfl⟩)⟩ (.cons ⟨rfl, rfl, rfl, .inr (.inr ⟨rfl, rfl⟩)⟩ .nil),
    ⟨_, rfl⟩, ⟨_, rfl⟩⟩

end Sys2Proof.Tests
end

section
/-! PROOFS. The frame encoder (spec/40_frame_encoder.md R100 to R114): the clamp and its split, the
bit fields of bytes 0 and 2, and the sum that the checksum closes. -/

namespace Sys2Proof.Proofs.FrameEncoder

open Sys2Proof Sys2Proof.Machine

/-! ## Steps 1 and 2: the clamp, the sign and the magnitude -/

/-- The clamp as the three cases of R101. -/
theorem clampTorque_eq_ite (t : Int) :
    clampTorque t = if t < -1023 then -1023 else if t > 1023 then 1023 else t := by
  unfold clampTorque steerMax
  split_ifs <;> omega

theorem signFlag_eq_false_iff (tc : Int) : signFlag tc = false ↔ tc ≥ 0 := by
  simp [signFlag]

theorem signFlag_eq_true_iff (tc : Int) : signFlag tc = true ↔ tc < 0 := by
  simp [signFlag]

theorem magnitudeOf_cast (tc : Int) : (magnitudeOf tc : Int) = if tc ≥ 0 then tc else -tc := by
  unfold magnitudeOf
  split_ifs <;> omega

theorem one_le_magnitudeOf_of_neg {tc : Int} (h : tc < 0) : 1 ≤ magnitudeOf tc := by
  unfold magnitudeOf
  omega

/-- The magnitude fits 10 bits (R102). -/
theorem magnitudeOf_clampTorque_le (t : Int) : magnitudeOf (clampTorque t) ≤ 1023 := by
  rw [magnitudeOf, clampTorque_natAbs]
  exact min_le_left _ _

/-- Settles O5: the clamp's three cases, and the split of the clamped torque. -/
theorem clampThenSignAndMagnitude : Obligations.ClampThenSignAndMagnitude := fun t =>
  ⟨clampTorque_eq_ite t, signFlag_eq_false_iff _, magnitudeOf_cast _, magnitudeOf_clampTorque_le t,
    fun hsign => one_le_magnitudeOf_of_neg ((signFlag_eq_true_iff _).mp hsign)⟩

/-! ## Step 3: byte 0 -/

/-- The bit fields of the byte that R104 describes: a nibble `n`, three zeros, the flag. -/
theorem nibble_append_flag_fields (n : BitVec 4) (r : Bool) :
    (n ++ 0#3 ++ BitVec.ofBool r).toNat = 16 * n.toNat + (if r then 1 else 0) ∧
    (n ++ 0#3 ++ BitVec.ofBool r) &&& 0x01#8 = (if r then 1#8 else 0#8) ∧
    (n ++ 0#3 ++ BitVec.ofBool r) &&& 0x0E#8 = 0#8 ∧
    (n ++ 0#3 ++ BitVec.ofBool r) >>> 4 = n.setWidth 8 := by
  revert n r
  decide

/-- Byte 0 is three bit fields side by side: the counter modulo 16, three zeros, the flag. -/
theorem byte0_eq_append (c : Nat) (r : Bool) :
    byte0 c r = BitVec.ofNat 4 c ++ 0#3 ++ BitVec.ofBool r := by
  obtain ⟨hnat, -, -, -⟩ := nibble_append_flag_fields (BitVec.ofNat 4 c) r
  apply BitVec.eq_of_toNat_eq
  rw [hnat, byte0_toNat, BitVec.toNat_ofNat]

theorem byte0_shiftRight (c : Nat) (r : Bool) : byte0 c r >>> 4 = BitVec.ofNat 8 (c % 16) := by
  obtain ⟨-, -, -, hshift⟩ := nibble_append_flag_fields (BitVec.ofNat 4 c) r
  rw [byte0_eq_append, hshift]
  apply BitVec.eq_of_toNat_eq
  simp only [BitVec.toNat_setWidth, BitVec.toNat_ofNat, Nat.reducePow]

theorem byte0_and_one (c : Nat) (r : Bool) :
    byte0 c r &&& 0x01#8 = if r then 1#8 else 0#8 := by
  obtain ⟨-, hflag, -, -⟩ := nibble_append_flag_fields (BitVec.ofNat 4 c) r
  rw [byte0_eq_append, hflag]

theorem byte0_reserved (c : Nat) (r : Bool) : byte0 c r &&& 0x0E#8 = 0#8 := by
  obtain ⟨-, -, hzero, -⟩ := nibble_append_flag_fields (BitVec.ofNat 4 c) r
  rw [byte0_eq_append, hzero]

/-- R114: byte 0 loses nothing of a counter of four bits, whatever the flag. -/
theorem byte0_shiftRight_toNat (c : Nat) (r : Bool) (hc : c ≤ 15) :
    (byte0 c r >>> 4).toNat = c := by
  rw [byte0_shiftRight, BitVec.toNat_ofNat]
  omega

/-- Settles O8: byte 0 does not depend on the torque, and its two fields are the counter and the
flag. -/
theorem counterIsTheHighNibbleOfByte0 : Obligations.CounterIsTheHighNibbleOfByte0 := by
  intro t c r hc
  have hb0 : (encodeFrame t c r).b0 = byte0 c r := rfl
  rw [hb0]
  refine ⟨byte0_shiftRight_toNat c r hc, ?_⟩
  rw [byte0_and_one]
  cases r <;> rfl

/-! ## Step 5: byte 2 -/

/-- The bit fields of the byte that R106 describes, its bit 2 being zero: four zeros, the sign, a
zero, the upper bits `n` of the magnitude. -/
theorem sign_append_upper_fields (sign : Bool) (n : BitVec 2) :
    (0#4 ++ BitVec.ofBool sign ++ 0#1 ++ n).toNat = (if sign then 8 else 0) + n.toNat ∧
    ((0#4 ++ BitVec.ofBool sign ++ 0#1 ++ n) &&& 0x07#8).toNat = n.toNat ∧
    (0#4 ++ BitVec.ofBool sign ++ 0#1 ++ n).getLsbD 3 = sign ∧
    (0#4 ++ BitVec.ofBool sign ++ 0#1 ++ n) &&& 0xF4#8 = 0#8 := by
  revert sign n
  decide

/-- A magnitude of 10 bits has two bits above its low byte. -/
theorem upper_toNat {m : Nat} (hm : m ≤ 1023) : (BitVec.ofNat 2 (m / 256)).toNat = m / 256 := by
  rw [BitVec.toNat_ofNat]
  omega

/-- Byte 2 of a magnitude of 10 bits is four bit fields side by side: four zeros, the sign, a zero,
the two bits above the magnitude's low byte. -/
theorem byte2_eq_append {m : Nat} (sign : Bool) (hm : m ≤ 1023) :
    byte2 m sign = 0#4 ++ BitVec.ofBool sign ++ 0#1 ++ BitVec.ofNat 2 (m / 256) := by
  obtain ⟨hnat, -, -, -⟩ := sign_append_upper_fields sign (BitVec.ofNat 2 (m / 256))
  apply BitVec.eq_of_toNat_eq
  rw [hnat, byte2_toNat m sign hm, upper_toNat hm]

theorem byte2_magnitude {m : Nat} (sign : Bool) (hm : m ≤ 1023) :
    (byte2 m sign &&& 0x07#8).toNat = m / 256 := by
  obtain ⟨-, hupper, -, -⟩ := sign_append_upper_fields sign (BitVec.ofNat 2 (m / 256))
  rw [byte2_eq_append sign hm, hupper, upper_toNat hm]

theorem byte2_sign {m : Nat} (sign : Bool) (hm : m ≤ 1023) :
    (byte2 m sign).getLsbD 3 = sign := by
  obtain ⟨-, -, hsign, -⟩ := sign_append_upper_fields sign (BitVec.ofNat 2 (m / 256))
  rw [byte2_eq_append sign hm, hsign]

theorem byte2_reserved {m : Nat} (sign : Bool) (hm : m ≤ 1023) :
    byte2 m sign &&& 0xF4#8 = 0#8 := by
  obtain ⟨-, -, -, hzero⟩ := sign_append_upper_fields sign (BitVec.ofNat 2 (m / 256))
  rw [byte2_eq_append sign hm, hzero]

/-- Settles O6: byte 0 from its counter and flag, bytes 2 and 3 from the magnitude, which fits 10
bits, and the reserved zeros. -/
theorem frameBytesHoldTheirFields : Obligations.FrameBytesHoldTheirFields := by
  intro t c r
  have hm := magnitudeOf_clampTorque_le t
  exact ⟨byte0_shiftRight c r, byte0_and_one c r, byte0_reserved c r, rfl,
    byte2_magnitude _ hm, byte2_sign _ hm, byte2_reserved _ hm,
    byte3_toNat _, rfl, rfl, rfl⟩

/-! ## Step 8: the checksum -/

/-- Whatever the seven bytes, the checksum brings the sum of all eight to 0 modulo 256 (R113). -/
theorem closeFrame_sum8_mod (f : Frame) : (closeFrame f).sum8 % 256 = 0 := by
  have hb7 : (closeFrame f).b7.toNat = (256 - f.sum7 % 256) % 256 := checksum_toNat _
  have hsum : (closeFrame f).sum7 = f.sum7 := rfl
  rw [Frame.sum8, hb7, hsum]
  omega

/-- Bytes 1, 4, 5 and 6 add nothing to the sum (R109). -/
theorem encodeFrame_sum7 (t : Int) (c : Nat) (r : Bool) :
    (encodeFrame t c r).sum7 = (encodeFrame t c r).b0.toNat + (encodeFrame t c r).b2.toNat +
      (encodeFrame t c r).b3.toNat := by
  obtain ⟨-, h1, -, -, h4, h5, h6, -⟩ := encodeFrame_fields t c r
  rw [Frame.sum7, h1, h4, h5, h6]
  simp only [BitVec.toNat_ofNat, Nat.zero_mod, Nat.add_zero]

/-- The largest sum is `0xF1 + 0x0B + 0xFF` (R109). -/
theorem encodeFrame_sum7_le (t : Int) (c : Nat) (r : Bool) :
    (encodeFrame t c r).sum7 ≤ 0x1FB := by
  obtain ⟨h0, -, h2, h3, -⟩ := encodeFrame_fields t c r
  have hb0 : (encodeFrame t c r).b0.toNat ≤ 0xF1 := by rw [h0]; split <;> omega
  have hb2 : (encodeFrame t c r).b2.toNat ≤ 0x0B := by rw [h2]; split <;> omega
  have hb3 : (encodeFrame t c r).b3.toNat ≤ 0xFF := by rw [h3]; omega
  rw [encodeFrame_sum7]
  omega

/-- Settles O7: the checksum's formula, the bound of the sum, and the sum that the checksum closes. -/
theorem checksumMakesTheBytesSumToZero : Obligations.ChecksumMakesTheBytesSumToZero :=
  fun t c r => ⟨checksum_toNat _, encodeFrame_sum7 t c r, encodeFrame_sum7_le t c r,
    closeFrame_sum8_mod _⟩

end Sys2Proof.Proofs.FrameEncoder
end

section
/-! PROOFS. The tick operations (spec/41_control_loop.md R135 to R141): with the gate open each is one
emission, or the Quit stop, and what the emitted frame then holds. -/

namespace Sys2Proof.Proofs.ControlLoop

open Sys2Proof Sys2Proof.Machine

/-! ## Each operation with the gate open: Running, and no input error -/

section OpenGate

variable {s : State} (hrun : s.run = .running) (herr : s.inErr = false)
include hrun herr

theorem exec_tNone_open (code : BitVec 3) :
    exec (.tNone code) s = .next (emit (idleTorque s) s) :=
  congrArg Host.Outcome.next (tickGate_open _ hrun herr)

theorem exec_tNeutral_open : exec .tNeutral s = .next (emit 0#16 s) :=
  congrArg Host.Outcome.next (tickGate_open _ hrun herr)

theorem exec_tLeft_open : exec .tLeft s = .next (emit (-s.cfg.steerStep) s) :=
  congrArg Host.Outcome.next (tickGate_open _ hrun herr)

theorem exec_tRight_open : exec .tRight s = .next (emit s.cfg.steerStep s) :=
  congrArg Host.Outcome.next (tickGate_open _ hrun herr)

theorem exec_tQuit_open : exec .tQuit s = .next (stop .quit s) :=
  congrArg Host.Outcome.next (tickGate_open _ hrun herr)

end OpenGate

/-- R139: the two low CODE bits are ignored, and what is left is torque 0 behind the same gate. -/
theorem exec_tRsvd_eq_tNeutral (low : BitVec 2) (s : State) :
    exec (.tRsvd low) s = exec .tNeutral s := rfl

/-- In Stopped the operation of every intent word leaves the state as it is (R151). -/
theorem exec_intentWord_stopped (iw : IntentWord) {s : State} (hrun : s.run = .stopped) :
    exec (decodeIntentWord iw) s = .next s := by
  obtain ⟨s', hexec, hstopped | ⟨hrunning, -⟩ | ⟨hrunning, -⟩ | ⟨hrunning, -⟩⟩ :=
    exec_intentWord_cases iw s
  · rw [hexec, hstopped.2]
  all_goals exact absurd (hrun.symm.trans hrunning) (by decide)

/-! ## The frame that an emission hands over -/

/-- The frame on the port after an emission of `t`. -/
theorem emit_tx (t : Torque) (s : State) :
    ∃ f, (emit t s).tx = some f ∧
      FrameFields t.toInt s.cnt.toNat (decide (t ≠ 0#16)) f := by
  obtain ⟨f, hfields, htx, -⟩ := (emit_emits t s).sends
  exact ⟨f, htx, hfields⟩

/-- R135: every byte of a zero-torque, request-off frame but the first and the last is 0. -/
theorem idleFrame_bytes {c : Nat} {f : Frame} (hc : c ≤ 15) (h : IdleFrame c f) :
    f.b0.toNat = 16 * c ∧ f.b1 = 0#8 ∧ f.b2 = 0#8 ∧ f.b3 = 0#8 ∧ f.b4 = 0#8 ∧ f.b5 = 0#8 ∧
      f.b6 = 0#8 ∧ f.b7.toNat = (0x100 - 16 * c) % 0x100 := by
  obtain ⟨h0, h1, h2, h3, h4, h5, h6, h7⟩ := h
  have hb0 : f.b0.toNat = 16 * c := by
    simp only [h0, Bool.false_eq_true, if_false]
    omega
  have hb2 : f.b2 = 0#8 := BitVec.eq_of_toNat_eq h2
  have hb3 : f.b3 = 0#8 := BitVec.eq_of_toNat_eq h3
  refine ⟨hb0, h1, hb2, hb3, h4, h5, h6, ?_⟩
  rw [h7, hb0, hb2, hb3, BitVec.toNat_ofNat]
  omega

/-! ## The negated step -/

/-- A legal step is not -32768 (00_scope.md R6), the one value whose negation does not fit 16 bits. -/
theorem steerStep_ne_intMin (c : Config) : c.steerStep ≠ BitVec.intMin 16 := by
  have hok : c.steerStepOk = true := by
    have hlegal := c.legal
    simp only [CfgPins.wf, Bool.and_eq_true] at hlegal
    obtain ⟨⟨⟨⟨hstep, -⟩, -⟩, -⟩, -⟩ := hlegal
    exact hstep
  exact of_decide_eq_true hok

/-- R136: the negation of a legal step is exact. -/
theorem toInt_neg_steerStep (c : Config) : (-c.steerStep).toInt = -c.steerStep.toInt :=
  BitVec.toInt_neg_of_ne_intMin (steerStep_ne_intMin c)

/-! ## The idle torque -/

/-- R140 under `latchLastValue`. -/
theorem idleTorque_latch {s : State} (h : s.cfg.holdPolicy = .latchLastValue) :
    idleTorque s = s.trq := by
  rw [idleTorque, h]

/-- R140 under `neutralOnNoInput`. -/
theorem idleTorque_neutral {s : State} (h : s.cfg.holdPolicy = .neutralOnNoInput) :
    idleTorque s = 0#16 := by
  rw [idleTorque, h]

/-! ## The obligations -/

/-- Settles O16: the emission of torque 0, whose frame is an idle one. -/
theorem neutralTickEmitsZeroTorque : Obligations.NeutralTickEmitsZeroTorque := by
  refine ⟨by decide, fun s hrun herr => ?_⟩
  obtain ⟨f, htx, hfields⟩ := emit_tx 0#16 s
  have hcnt : s.cnt.toNat ≤ 15 := Nat.le_of_lt_succ s.cnt.isLt
  exact ⟨_, f, exec_tNeutral_open hrun herr, emit_emits _ s, htx, idleFrame_bytes hcnt hfields⟩

/-- Settles O17: the negation is exact, and is 0 only for the step 0, so that the frame is that of the
negated integer. -/
theorem leftTickEmitsTheNegatedStep : Obligations.LeftTickEmitsTheNegatedStep := by
  refine ⟨by decide, fun s hrun herr => ?_⟩
  obtain ⟨f, htx, hfields⟩ := emit_tx (-s.cfg.steerStep) s
  have hemits := emit_emits (-s.cfg.steerStep) s
  refine ⟨_, f, exec_tLeft_open hrun herr, hemits, htx, ?_, ?_⟩
  · rw [hemits.trq, toInt_neg_steerStep]
  · simpa only [toInt_neg_steerStep, ne_eq, BitVec.neg_eq_zero_iff] using hfields

/-- Settles O18: the emission of the step as it is. -/
theorem rightTickEmitsTheStep : Obligations.RightTickEmitsTheStep := by
  refine ⟨by decide, fun s hrun herr => ?_⟩
  obtain ⟨f, htx, hfields⟩ := emit_tx s.cfg.steerStep s
  have hemits := emit_emits s.cfg.steerStep s
  exact ⟨_, f, exec_tRight_open hrun herr, hemits, htx, congrArg BitVec.toInt hemits.trq, hfields⟩

/-- Settles O19: `T.RSVD` is `T.NEUTRAL` in every state, so it emits torque 0 behind the open gate. -/
theorem reservedTickActsAsNeutral : Obligations.ReservedTickActsAsNeutral := by
  refine fun low => ⟨by revert low; decide, exec_tRsvd_eq_tNeutral low, fun s hrun herr => ?_⟩
  exact ⟨_, (exec_tRsvd_eq_tNeutral low s).trans (exec_tNeutral_open hrun herr), emit_emits _ s⟩

/-- Settles O20: one emission of the idle torque, which the hold policy chooses. -/
theorem idleTickFollowsTheHoldPolicy : Obligations.IdleTickFollowsTheHoldPolicy := by
  refine fun code => ⟨by revert code; decide, fun s hrun herr => ?_⟩
  have hemits := emit_emits (idleTorque s) s
  exact ⟨_, exec_tNone_open hrun herr code, fun hlatch => idleTorque_latch hlatch ▸ hemits,
    fun hneutral => idleTorque_neutral hneutral ▸ hemits⟩

/-- Settles O21: the stop with cause QUIT, after which the block is Stopped. -/
theorem quitTickStopsWithoutAFrame : Obligations.QuitTickStopsWithoutAFrame := by
  refine ⟨by decide, fun s hrun herr => ?_⟩
  have hstops := stop_stops .quit s
  exact ⟨_, exec_tQuit_open hrun herr, hstops, fun iw => exec_intentWord_stopped iw hstops.run⟩

end Sys2Proof.Proofs.ControlLoop
end

section
/-! PROOFS. The rolling counter along a run (spec/41_control_loop.md R147, R148, R156): what one step
does to the counter and the trace, and the invariant that every step keeps. -/

namespace Sys2Proof.Proofs.RollingCounter

open Sys2Proof Sys2Proof.Machine

/-! ## What one step does to the counter and the trace -/

/-- The three things a step from `s` to `s'` can do to the counter and the trace. -/
inductive CounterStep (s s' : State) : Prop
  /-- reset: both begin again -/
  | restarts (reset : AtReset s')
  /-- nothing is emitted and no value is consumed -/
  | keeps (cnt : s'.cnt = s.cnt) (trace : s'.trace = s.trace)
  /-- one frame, carrying the counter before its increment -/
  | counts (e : SendEvent) (nibble : (e.frame.b0 >>> 4).toNat = s.cnt.toNat)
      (cnt : s'.cnt.toNat = (s.cnt.toNat + 1) % 16) (trace : s'.trace = s.trace ++ [e])

/-- A counter step reads nothing of the state before it but the counter and the trace. -/
theorem CounterStep.of_same_before {r s s' : State} (h : CounterStep r s') (hcnt : r.cnt = s.cnt)
    (htrace : r.trace = s.trace) : CounterStep s s' := by
  cases h with
  | restarts reset => exact .restarts reset
  | keeps cnt trace => exact .keeps (cnt.trans hcnt) (trace.trans htrace)
  | counts e nibble cnt trace => exact .counts e (hcnt ▸ nibble) (hcnt ▸ cnt) (htrace ▸ trace)

/-- The high nibble of byte 0 is the counter modulo 16 (30_encoding.md R70). -/
theorem frameFields_counter {t : Int} {c : Nat} {r : Bool} {f : Frame} (h : FrameFields t c r f) :
    (f.b0 >>> 4).toNat = c % 16 := by
  obtain ⟨h0, -⟩ := h
  rw [BitVec.toNat_ushiftRight, Nat.shiftRight_eq_div_pow, h0]
  split <;> omega

theorem emits_counterStep {t : Torque} {s s' : State} (h : Emits t s s') : CounterStep s s' := by
  obtain ⟨f, hfields, -, htrace⟩ := h.sends
  refine .counts _ ?_ h.cnt htrace
  rw [frameFields_counter hfields]
  exact Nat.mod_eq_of_lt s.cnt.isLt

theorem stopsSilently_counterStep {c : Cause} {s s' : State} (h : StopsSilently c s s') :
    CounterStep s s' :=
  .keeps h.cnt h.trace

theorem exec_intentWord_counterStep {iw : IntentWord} {s s' : State}
    (h : exec (decodeIntentWord iw) s = .next s') : CounterStep s s' := by
  obtain ⟨s₁, hexec, hcases⟩ := exec_intentWord_cases iw s
  obtain rfl : s₁ = s' := Host.Outcome.next.inj (hexec.symm.trans h)
  obtain ⟨-, rfl⟩ | ⟨-, -, rfl⟩ | ⟨-, -, -, rfl⟩ | ⟨-, -, -, t, -, rfl⟩ := hcases
  · exact .keeps rfl rfl
  · exact stopsSilently_counterStep (raise_stops _ s)
  · exact stopsSilently_counterStep (stop_stops _ s)
  · exact emits_counterStep (emit_emits t s)

/-- Reading the environment touches neither the counter nor the trace. -/
theorem nextStimulus_keeps_counter {s r : State} {x : Stimulus} (h : nextStimulus s = (x, r)) :
    r.cnt = s.cnt ∧ r.trace = s.trace := by
  obtain ⟨y, rest, -, hnext⟩ | ⟨-, hnext⟩ := nextStimulus_cases s
  all_goals
    obtain ⟨-, rfl⟩ := Prod.mk.inj (hnext.symm.trans h)
    exact ⟨rfl, rfl⟩

/-- Every step, whatever the event: only a reset and an emission move the counter or the trace. -/
theorem step_counterStep {s s' : State} (h : step s = .next s') : CounterStep s s' := by
  obtain ⟨x, r, hnext, hcases⟩ := step_cases h
  obtain ⟨hcnt, htrace⟩ := nextStimulus_keeps_counter hnext
  obtain ⟨p, -, -, rfl⟩ | ⟨p, -, -, hexec⟩ | ⟨p, -, -, -, -, rfl⟩ | ⟨p, -, -, -, rfl⟩ |
    ⟨c, -, -, rfl⟩ | ⟨f, -, -, rfl⟩ := hcases
  case inl => exact .restarts (doReset_atReset _)
  case inr.inl =>
    refine (exec_intentWord_counterStep hexec).of_same_before ?_ ?_
    · simpa [sampled] using hcnt
    · simpa [sampled] using htrace
  all_goals exact .keeps hcnt htrace

/-! ## The invariant -/

/-- R156: the `k`-th frame since reset carries `k` modulo 16, and the counter is the number that the
next frame will carry. -/
structure CountersRun (s : State) : Prop where
  events : ∀ (k : Nat) (e : SendEvent), s.trace[k]? = some e → (e.frame.b0 >>> 4).toNat = k % 16
  cnt : s.cnt.toNat = s.trace.length % 16

theorem atReset_countersRun {s : State} (h : AtReset s) : CountersRun s where
  events k e hk := by simp [h.trace] at hk
  cnt := by simp [h.trace, h.cnt]

/-- An entry of a trace with one more event is an old entry or the new event. -/
theorem getElem?_append_singleton_cases {xs : List SendEvent} {e e' : SendEvent} {k : Nat}
    (h : (xs ++ [e])[k]? = some e') : xs[k]? = some e' ∨ (k = xs.length ∧ e' = e) := by
  obtain hold | hnew := Nat.lt_or_ge k xs.length
  · exact .inl (List.getElem?_append_left hold ▸ h)
  · rw [List.getElem?_append_right hnew] at h
    obtain ⟨hidx, hval⟩ := List.getElem?_eq_some_iff.mp h
    rw [List.length_singleton] at hidx
    rw [List.getElem_singleton] at hval
    exact .inr ⟨by omega, hval.symm⟩

/-- An emission appends the frame with the index `s.trace.length`, whose counter the invariant gives. -/
theorem CountersRun.keeps {s s' : State} (hs : CountersRun s) (h : CounterStep s s') :
    CountersRun s' := by
  cases h with
  | restarts reset => exact atReset_countersRun reset
  | keeps cnt trace => exact ⟨trace ▸ hs.events, by rw [cnt, trace, hs.cnt]⟩
  | counts e nibble cnt trace =>
    refine ⟨fun k e' hk => ?_, ?_⟩
    · rw [trace] at hk
      obtain hold | ⟨hlast, rfl⟩ := getElem?_append_singleton_cases hk
      · exact hs.events k e' hold
      · rw [nibble, hs.cnt, hlast]
    · rw [cnt, trace, hs.cnt, List.length_append, List.length_singleton]
      omega

/-- A start-up releases the reset values under its own configuration. -/
theorem release_atReset {l : Startup} {s : State} (h : release l = some s) : AtReset s := by
  unfold release at h
  split_ifs at h
  obtain rfl := Option.some.inj h
  exact ⟨rfl, rfl, rfl, rfl, rfl, rfl, rfl⟩

theorem reachable_countersRun {s : State} (h : Reachable s) : CountersRun s := by
  induction h with
  | start l s schedule acquired released =>
    obtain ⟨events, cnt⟩ := atReset_countersRun (release_atReset released)
    exact ⟨events, cnt⟩
  | step s s' before next stable ih => exact ih.keeps (step_counterStep next)

/-- Settles O45, by the invariant `CountersRun`. -/
theorem emittedCountersRunModulo16 : Obligations.EmittedCountersRunModulo16 := by
  intro s hs
  obtain ⟨events, cnt⟩ := reachable_countersRun hs
  exact ⟨events, cnt⟩

end Sys2Proof.Proofs.RollingCounter
end

section
/-! PROOFS. The counter inside a run (spec/70_reset_and_hazards.md R211): only reset, which shows on
the `rst` line, and an emission, which shows on the transport, move it. -/

namespace Sys2Proof.Proofs.CounterInARun

open Sys2Proof Sys2Proof.Machine Sys2Proof.Proofs.RollingCounter

/-- A frame was handed over and the 4-bit counter went on by one, from 15 to 0. -/
def HandsOverAndCounts (s s' : State) : Prop :=
  s'.tx ≠ none ∧ s'.cnt.toNat = if s.cnt.toNat = 15 then 0 else s.cnt.toNat + 1

/-- The next value of a 4-bit counter: its increment modulo 16 is R211's wrap from 15. -/
theorem succ_mod_16_eq_ite (c : BitVec 4) :
    (c.toNat + 1) % 16 = if c.toNat = 15 then 0 else c.toNat + 1 := by
  have hc : c.toNat < 16 := c.isLt
  split <;> omega

theorem emits_handsOverAndCounts {t : Torque} {s s' : State} (h : Emits t s s') :
    HandsOverAndCounts s s' := by
  obtain ⟨f, -, htx, -⟩ := h.sends
  exact ⟨htx ▸ Option.some_ne_none f, h.cnt.trans (succ_mod_16_eq_ite s.cnt)⟩

/-- A tick's operation is no reset: Stopped, an input error and Quit keep the counter. -/
theorem exec_intentWord_keeps_or_counts {iw : IntentWord} {s s' : State}
    (h : exec (decodeIntentWord iw) s = .next s') : s'.cnt = s.cnt ∨ HandsOverAndCounts s s' := by
  obtain ⟨s₁, hexec, hcases⟩ := exec_intentWord_cases iw s
  obtain rfl : s₁ = s' := Host.Outcome.next.inj (hexec.symm.trans h)
  obtain ⟨-, rfl⟩ | ⟨-, -, rfl⟩ | ⟨-, -, -, rfl⟩ | ⟨-, -, -, t, -, rfl⟩ := hcases
  · exact .inl rfl
  · exact .inl (raise_stops _ s).cnt
  · exact .inl (stop_stops _ s).cnt
  · exact .inr (emits_handsOverAndCounts (emit_emits t s))

/-- An event that asserts reset leaves the `rst` line up beside the reset values. -/
theorem doReset_present_rst {x : Stimulus} {p : InPorts} (r : State) (hrst : assertsReset x = true)
    (hx : x = .tick p ∨ x = .edge p) : (doReset (present p r)).rst = true := by
  obtain rfl | rfl := hx <;> exact hrst

/-- Settles O39, by the cases of a step: a reset, a tick's operation, or an event that keeps the
counter. -/
theorem counterIsNeverResetInARun : Obligations.CounterIsNeverResetInARun := by
  intro s s' h
  obtain ⟨x, r, hnext, hcases⟩ := step_cases h
  obtain ⟨hcnt, -⟩ := nextStimulus_keeps_counter hnext
  obtain ⟨p, hrst, hx, rfl⟩ | ⟨p, -, -, hexec⟩ | ⟨p, -, -, -, -, rfl⟩ | ⟨p, -, -, -, rfl⟩ |
    ⟨c, -, -, rfl⟩ | ⟨f, -, -, rfl⟩ := hcases
  case inl => exact .inl ⟨doReset_present_rst _ hrst hx, doReset_atReset _⟩
  case inr.inl =>
    have hsampled : (sampled p (lowerStrobes r)).cnt = s.cnt := by simpa [sampled] using hcnt
    have hop := exec_intentWord_keeps_or_counts hexec
    rw [HandsOverAndCounts, hsampled] at hop
    exact .inr hop
  all_goals exact .inr (.inl hcnt)

end Sys2Proof.Proofs.CounterInARun
end

section
/-! PROOFS. The FRAME read back (spec/30_encoding.md R70 to R78; spec/40_frame_encoder.md R112, R115):
what a frame's fields say of `ENCODE`'s operands, and that the frames the decoder accepts are exactly
those that `ENCODE` gives. -/

namespace Sys2Proof.Proofs.FrameDecoder

open Sys2Proof Sys2Proof.Machine Sys2Proof.Proofs.FrameEncoder

/-! ## Bit fields of a byte -/

theorem and_one_eq_one_iff (b : Byte) : b &&& 0x01#8 = 1#8 ↔ b.getLsbD 0 = true := by
  revert b
  decide

/-- Byte 0 with its reserved bits zero is a nibble and a flag. -/
theorem toNat_of_and_0x0E {b : Byte} (h : b &&& 0x0E#8 = 0#8) :
    b.toNat = 16 * (b >>> 4).toNat + (if b.getLsbD 0 then 1 else 0) := by
  revert b
  decide

/-- Byte 2 with its reserved bits and MAG[10] zero is a sign and two bits of magnitude. -/
theorem toNat_of_and_0xF4 {b : Byte} (h : b &&& 0xF4#8 = 0#8) :
    b.toNat = (if b.getLsbD 3 then 8 else 0) + (b &&& 0x07#8).toNat ∧ (b &&& 0x07#8).toNat ≤ 3 := by
  revert b
  decide

theorem and_0x08_ne_zero_iff (b : Byte) : b &&& 0x08#8 ≠ 0#8 ↔ b.getLsbD 3 = true := by
  revert b
  decide

theorem and_0x03_eq_zero_iff {b : Byte} (h : b &&& 0xF4#8 = 0#8) :
    b &&& 0x03#8 = 0#8 ↔ (b &&& 0x07#8).toNat = 0 := by
  revert b
  decide

theorem and_0xF4_eq_zero_iff (b : Byte) :
    b &&& 0xF4#8 = 0#8 ↔ b &&& 0xF0#8 = 0#8 ∧ b &&& 0x04#8 = 0#8 := by
  revert b
  decide

theorem shiftRight_three_and_one_eq_zero_iff (b : Byte) :
    (b >>> 3) &&& 0x01#8 = 0#8 ↔ b.getLsbD 3 = false := by
  revert b
  decide

/-! ## The fields of an encoded frame -/

theorem encodeFrame_counter (t : Int) (c : Nat) (r : Bool) :
    (encodeFrame t c r).counter = c % 16 := by
  have hb0 : (encodeFrame t c r).b0 = byte0 c r := rfl
  rw [Frame.counter, hb0, byte0_shiftRight, BitVec.toNat_ofNat]
  omega

theorem encodeFrame_request (t : Int) (c : Nat) (r : Bool) : (encodeFrame t c r).request = r := by
  have hb0 : (encodeFrame t c r).b0 = byte0 c r := rfl
  rw [Frame.request, hb0, Bool.eq_iff_iff, ← and_one_eq_one_iff, byte0_and_one]
  cases r <;> decide

theorem encodeFrame_sign (t : Int) (c : Nat) (r : Bool) :
    (encodeFrame t c r).sign = decide (clampTorque t < 0) :=
  byte2_sign _ (magnitudeOf_clampTorque_le t)

theorem encodeFrame_magnitude (t : Int) (c : Nat) (r : Bool) :
    (encodeFrame t c r).magnitude = (clampTorque t).natAbs := by
  have hupper : ((encodeFrame t c r).b2 &&& 0x07#8).toNat = (clampTorque t).natAbs / 256 :=
    byte2_magnitude _ (magnitudeOf_clampTorque_le t)
  have hlower : (encodeFrame t c r).b3.toNat = (clampTorque t).natAbs % 256 := byte3_toNat _
  rw [Frame.magnitude, hupper, hlower]
  omega

theorem encodeFrame_torque (t : Int) (c : Nat) (r : Bool) :
    (encodeFrame t c r).torque = clampTorque t := by
  simp only [Frame.torque, encodeFrame_sign, encodeFrame_magnitude, decide_eq_true_eq]
  split <;> omega

/-- R144: the loop's flag is that of the torque before the clamp, which keeps it from 0. -/
theorem encodeFrame_coupled (t : Torque) (c : Nat) :
    Coupled (encodeFrame t.toInt c (requestFlag t)) := by
  have hmag := encodeFrame_magnitude t.toInt c (requestFlag t)
  have hreq := encodeFrame_request t.toInt c (requestFlag t)
  rw [Frame.magnitude, clampTorque_natAbs] at hmag
  rw [Frame.request] at hreq
  have hzero : t ≠ 0#16 ↔ t.toInt ≠ 0 := not_congr BitVec.toInt_inj.symm
  rw [Coupled, and_one_eq_one_iff, hreq, hmag, requestFlag, decide_eq_true_eq, hzero]
  omega

/-! ## Producible frames -/

/-- R73 in the decoder's terms: with the reserved bits of byte 2 zero, the excluded pattern is a
negative sign with magnitude 0. -/
theorem negativeZero_iff {f : Frame} (h : f.b2 &&& 0xF4#8 = 0#8) :
    (f.b2 &&& 0x08#8 ≠ 0#8 ∧ f.b2 &&& 0x03#8 = 0#8 ∧ f.b3 = 0#8) ↔
      f.sign = true ∧ f.magnitude = 0 := by
  have hb3 : f.b3 = 0#8 ↔ f.b3.toNat = 0 := by
    rw [← BitVec.toNat_inj, BitVec.toNat_ofNat]
  have hmag : f.magnitude = 0 ↔ (f.b2 &&& 0x07#8).toNat = 0 ∧ f.b3.toNat = 0 := by
    unfold Frame.magnitude
    omega
  rw [and_0x08_ne_zero_iff, and_0x03_eq_zero_iff h, hb3, hmag, Frame.sign]

theorem encodeFrame_producible (t : Int) (c : Nat) (r : Bool) : Producible (encodeFrame t c r) := by
  obtain ⟨-, -, hb0, hb1, -, -, hb2, -, hb4, hb5, hb6⟩ := frameBytesHoldTheirFields t c r
  obtain ⟨-, -, -, hsum⟩ := checksumMakesTheBytesSumToZero t c r
  refine ⟨hb0, hb1, hb4, hb5, hb6, hb2, ?_, hsum⟩
  rw [negativeZero_iff hb2, encodeFrame_sign, encodeFrame_magnitude, decide_eq_true_eq]
  omega

/-- The decoder's four checks are the conditions of R78. -/
theorem defect_eq_none_iff (f : Frame) : f.defect = none ↔ Producible f := by
  unfold Frame.defect Producible
  rw [and_0xF4_eq_zero_iff]
  have hsum : f.sum8 = f.b0.toNat + f.b1.toNat + f.b2.toNat + f.b3.toNat + f.b4.toNat +
    f.b5.toNat + f.b6.toNat + f.b7.toNat := rfl
  rw [hsum]
  split_ifs <;> simp only [true_iff, false_iff] <;> tauto

theorem torque_natAbs (f : Frame) : f.torque.natAbs = f.magnitude := by
  unfold Frame.torque
  split <;> omega

theorem torque_neg_iff (f : Frame) : f.torque < 0 ↔ f.sign = true ∧ f.magnitude ≠ 0 := by
  unfold Frame.torque
  cases f.sign with
  | false => simp
  | true => simp only [if_true, true_and]; omega

theorem counter_lt (f : Frame) : f.counter < 16 := by
  have hb0 : f.b0.toNat < 256 := f.b0.isLt
  rw [Frame.counter, BitVec.toNat_ushiftRight, Nat.shiftRight_eq_div_pow]
  omega

/-- A producible frame has the fields of the operands it carries. -/
theorem producible_fields {f : Frame} (h : Producible f) :
    FrameFields f.torque f.counter f.request f := by
  obtain ⟨hb0, hb1, hb4, hb5, hb6, hb2, hzero, hsum⟩ := h
  rw [negativeZero_iff hb2] at hzero
  obtain ⟨hsign, hupper⟩ := toNat_of_and_0xF4 hb2
  have hmag : f.magnitude = (f.b2 &&& 0x07#8).toNat * 256 + f.b3.toNat := rfl
  have hb3 : f.b3.toNat < 256 := f.b3.isLt
  have hb7 : f.b7.toNat < 256 := f.b7.isLt
  have hneg : f.torque < 0 ↔ f.b2.getLsbD 3 = true := by
    rw [torque_neg_iff]
    exact ⟨And.left, fun h => ⟨h, fun hm => hzero ⟨h, hm⟩⟩⟩
  have hif : (if f.torque < 0 then 8 else 0) = if f.b2.getLsbD 3 = true then 8 else 0 :=
    if_congr hneg rfl rfl
  refine ⟨?_, hb1, ?_, ?_, hb4, hb5, hb6, ?_⟩
  · rw [Nat.mod_eq_of_lt (counter_lt f)]
    exact toNat_of_and_0x0E hb0
  · rw [hif, torque_natAbs, hsign, hmag]
    omega
  · rw [torque_natAbs, hmag]
    omega
  · simp only [hb1, hb4, hb5, hb6, BitVec.toNat_ofNat, Nat.zero_mod] at hsum
    omega

/-- A producible frame is the frame of the operands it carries. -/
theorem encodeFrame_of_producible {f : Frame} (h : Producible f) :
    encodeFrame f.torque f.counter f.request = f :=
  (encodeFrame_fields _ _ _).unique (producible_fields h)

theorem frameFields_producible {t : Int} {c : Nat} {r : Bool} {f : Frame} (h : FrameFields t c r f) :
    Producible f :=
  (encodeFrame_fields t c r).unique h ▸ encodeFrame_producible t c r

/-! ## The decoder -/

theorem decodeFrame_of_producible {f : Frame} (h : Producible f) :
    decodeFrame f = .ok (.encode f.torque f.counter f.request) := by
  rw [decodeFrame, (defect_eq_none_iff f).mpr h]

theorem producible_iff_decodeFrame_ok (f : Frame) : Producible f ↔ ∃ i, decodeFrame f = .ok i := by
  refine ⟨fun h => ⟨_, decodeFrame_of_producible h⟩, fun ⟨i, hi⟩ => ?_⟩
  rw [← defect_eq_none_iff]
  unfold decodeFrame at hi
  cases hd : f.defect with
  | none => rfl
  | some e => simp [hd] at hi

/-- The decoder gives the operands back, the torque clamped. -/
theorem decodeFrame_encodeFrame (t : Int) {c : Nat} (r : Bool) (hc : c ≤ 15) :
    decodeFrame (encodeFrame t c r) = .ok (.encode (clampTorque t) c r) := by
  rw [decodeFrame_of_producible (encodeFrame_producible t c r), encodeFrame_torque,
    encodeFrame_counter, encodeFrame_request, Nat.mod_eq_of_lt (Nat.lt_succ_of_le hc)]

/-- The clamp as R77 and R112 write it. -/
theorem clampTorque_eq_max_min (t : Int) : clampTorque t = max (-1023) (min 1023 t) := rfl

theorem clampTorque_of_mem {t : Int} (hlo : -1023 ≤ t) (hhi : t ≤ 1023) : clampTorque t = t := by
  rw [clampTorque_eq_max_min]
  omega

/-- `ENCODE` reads of its torque only the clamped value. -/
theorem encodeFrame_congr {t t' : Int} (c : Nat) (r : Bool) (h : clampTorque t = clampTorque t') :
    encodeFrame t c r = encodeFrame t' c r := by
  rw [encodeFrame, encodeFrame, h]

/-- What a producible frame carries lies in the encoder's intended domain. -/
theorem producible_operands_mem {f : Frame} (h : Producible f) :
    -1023 ≤ f.torque ∧ f.torque ≤ 1023 ∧ f.counter ≤ 15 := by
  have htorque := encodeFrame_torque f.torque f.counter f.request
  have hcounter := encodeFrame_counter f.torque f.counter f.request
  rw [encodeFrame_of_producible h] at htorque hcounter
  rw [clampTorque_eq_max_min] at htorque
  omega

/-- An intent word in its byte form reads as the operation it selects. -/
theorem decode_intentWord (iw : IntentWord) :
    decode [iw.setWidth 8] = .ok (decodeIntentWord iw) := by
  revert iw
  decide

/-! ## The bit table -/

/-- Byte 2 of the table, with a magnitude of 11 bits. -/
theorem sign_append_mag_toNat (sign : Bool) (mag : BitVec 11) :
    (0#4 ++ BitVec.ofBool sign ++ mag.extractLsb' 8 3).toNat =
      (if sign then 8 else 0) + mag.toNat / 256 := by
  have htop : (mag.extractLsb' 8 3).toNat = mag.toNat / 256 := by
    rw [BitVec.extractLsb'_toNat, Nat.shiftRight_eq_div_pow]
    have := mag.isLt
    omega
  rw [← htop]
  generalize mag.extractLsb' 8 3 = top
  revert sign top
  decide

/-- The bit table of R70 lays out the fields of its operands. -/
theorem frameLayout_fields {t : Int} (c : Nat) (r : Bool) (hlo : -1023 ≤ t) (hhi : t ≤ 1023) :
    FrameFields t c r
      (frameLayout (BitVec.ofNat 4 c) r (decide (t < 0)) (BitVec.ofNat 11 t.natAbs)) := by
  have hmag : (BitVec.ofNat 11 t.natAbs).toNat = min 1023 t.natAbs := by
    rw [BitVec.toNat_ofNat]
    omega
  have hb0 := byte0_toNat c r
  rw [byte0_eq_append] at hb0
  refine ⟨hb0, rfl, ?_, ?_, rfl, rfl, rfl, ?_⟩
  · simp only [frameLayout]
    rw [sign_append_mag_toNat, hmag]
    simp only [decide_eq_true_eq]
  · simp only [frameLayout]
    rw [BitVec.extractLsb'_toNat, hmag]
    rfl
  · simp only [frameLayout, BitVec.toNat_sub, BitVec.toNat_add, BitVec.toNat_ofNat]
    omega

/-- The algorithm of R100 and the bit table of R70 are two readings of one frame. -/
theorem encodeFrame_eq_frameLayout {t : Int} (c : Nat) (r : Bool) (hlo : -1023 ≤ t)
    (hhi : t ≤ 1023) :
    encodeFrame t c r =
      frameLayout (BitVec.ofNat 4 c) r (decide (t < 0)) (BitVec.ofNat 11 t.natAbs) :=
  (encodeFrame_fields t c r).unique (frameLayout_fields c r hlo hhi)

/-! ## The port -/

theorem lane_lowest {v : Nat} (x : BitVec v) (b : Byte) : (x ++ b).extractLsb' 0 8 = b :=
  BitVec.extractLsb'_append_eq_right

/-- A lane above the lowest byte lies one byte lower in what is left without it. -/
theorem lane_above {v k : Nat} (x : BitVec v) (b : Byte) :
    (x ++ b).extractLsb' (k + 8) 8 = x.extractLsb' k 8 := by
  rw [BitVec.extractLsb'_append_eq_of_le (Nat.le_add_left 8 k), Nat.add_sub_cancel]

/-- Each lane is found by taking the bytes below it off. -/
theorem toPort_lanes (f : Frame) :
    f.toPort.extractLsb' 0 8 = f.b0 ∧ f.toPort.extractLsb' 8 8 = f.b1 ∧
    f.toPort.extractLsb' 16 8 = f.b2 ∧ f.toPort.extractLsb' 24 8 = f.b3 ∧
    f.toPort.extractLsb' 32 8 = f.b4 ∧ f.toPort.extractLsb' 40 8 = f.b5 ∧
    f.toPort.extractLsb' 48 8 = f.b6 ∧ f.toPort.extractLsb' 56 8 = f.b7 := by
  refine ⟨lane_lowest _ _, ?_, ?_, ?_, ?_, ?_, ?_, ?_⟩
  all_goals
    unfold Frame.toPort
    repeat rw [lane_above]
  iterate 6 · exact lane_lowest _ _
  · exact BitVec.extractLsb'_eq_self

/-- The port loses nothing. -/
theorem ofPort_toPort (f : Frame) : Frame.ofPort f.toPort = f := by
  obtain ⟨h0, h1, h2, h3, h4, h5, h6, h7⟩ := toPort_lanes f
  rw [Frame.ofPort, h0, h1, h2, h3, h4, h5, h6, h7]

/-- R78 on the port: the bits that are 0 in every producible frame. -/
theorem producible_toPort_mask {f : Frame} (h : Producible f) :
    f.toPort &&& 0x00FFFFFF00F4FF0E#64 = 0#64 := by
  obtain ⟨hb0, hb1, hb4, hb5, hb6, hb2, -, -⟩ := h
  have hmask : (0x00FFFFFF00F4FF0E#64) =
      0x00#8 ++ 0xFF#8 ++ 0xFF#8 ++ 0xFF#8 ++ 0x00#8 ++ 0xF4#8 ++ 0xFF#8 ++ 0x0E#8 := by decide
  rw [hmask, Frame.toPort]
  repeat rw [BitVec.and_append]
  rw [hb0, hb1, hb2, hb4, hb5, hb6, BitVec.and_zero, BitVec.and_zero]
  decide

/-! ## The obligations -/

/-- Settles O4: the lanes of the port, and the frame read back from them. -/
theorem frameBytesLieOnTheirPortLanes : Obligations.FrameBytesLieOnTheirPortLanes := by
  intro f
  obtain ⟨h0, h1, h2, h3, h4, h5, h6, h7⟩ := toPort_lanes f
  exact ⟨h0, h1, h2, h3, h4, h5, h6, h7, ofPort_toPort f⟩

/-- Settles O2: each row of the map at its word, and all 16 words read and written again. -/
theorem intentCodesSelectTheirOperation : Obligations.IntentCodesSelectTheirOperation := by
  refine ⟨?_, ?_, ?_, ?_, ?_, ?_, ?_⟩ <;> decide

/-- Settles O3: five closed words. -/
theorem tableWordsDecodeToTheirRows : Obligations.TableWordsDecodeToTheirRows := by
  refine ⟨?_, ?_, ?_, ?_, ?_⟩ <;> decide

/-- Settles O14: four closed frames. -/
theorem workedFramesOfTheSource : Obligations.WorkedFramesOfTheSource := by
  refine ⟨?_, ?_, ?_, ?_⟩ <;> decide

/-- Settles O13: both frames have the fields of the operands, and the fields determine the frame. -/
theorem algorithmAgreesWithTheFrameTable : Obligations.AlgorithmAgreesWithTheFrameTable :=
  fun _ c r hlo hhi => encodeFrame_eq_frameLayout c r hlo hhi

/-- Settles O1: an intent word by the map's rows, a FRAME because the bit table gives the encoder's
frame, which the decoder reads back. -/
theorem decodeOfEncodeIsTheInstruction : Obligations.DecodeOfEncodeIsTheInstruction := by
  obtain ⟨hnone, hneutral, hleft, hright, hquit, hrsvd, -⟩ := intentCodesSelectTheirOperation
  intro i hwf
  cases i with
  | tNone code => exact (decode_intentWord _).trans (congrArg _ (hnone code))
  | tNeutral => exact (decode_intentWord _).trans (congrArg _ hneutral)
  | tLeft => exact (decode_intentWord _).trans (congrArg _ hleft)
  | tRight => exact (decode_intentWord _).trans (congrArg _ hright)
  | tQuit => exact (decode_intentWord _).trans (congrArg _ hquit)
  | tRsvd low => exact (decode_intentWord _).trans (congrArg _ (hrsvd low))
  | encode t c r =>
    obtain ⟨hlo, hhi, hc⟩ : -1023 ≤ t ∧ t ≤ 1023 ∧ c ≤ 15 := of_decide_eq_true hwf
    have hframe := decodeFrame_encodeFrame t r hc
    rw [encodeFrame_eq_frameLayout c r hlo hhi, clampTorque_of_mem hlo hhi] at hframe
    exact hframe

/-- Settles O10: the fields of the encoded frame. -/
theorem magnitudeAndSignMatchTheClamp : Obligations.MagnitudeAndSignMatchTheClamp := by
  intro t c r
  refine ⟨encodeFrame_magnitude t c r, ?_, ?_⟩
  · rw [encodeFrame_magnitude]
    exact magnitudeOf_clampTorque_le t
  · rw [encodeFrame_sign, decide_eq_true_eq, clampTorque_eq_max_min]

/-- Settles O9: the receiver's formulas are the decoder's readings of the fields. -/
theorem frameReadsBackItsOperands : Obligations.FrameReadsBackItsOperands := by
  intro t c r hc
  refine ⟨?_, ?_, ?_, decodeFrame_encodeFrame t r hc⟩
  · exact (encodeFrame_counter t c r).trans (Nat.mod_eq_of_lt (Nat.lt_succ_of_le hc))
  · rw [and_one_eq_one_iff]
    exact Bool.eq_iff_iff.mp (encodeFrame_request t c r)
  · have htorque := encodeFrame_torque t c r
    rw [clampTorque_eq_max_min, Frame.torque, Frame.sign] at htorque
    simp only [shiftRight_three_and_one_eq_zero_iff]
    rw [← htorque]
    cases (encodeFrame t c r).b2.getLsbD 3 <;> rfl

/-- Settles O11: equal frames decode to equal operands; outside the domain the clamp decides. -/
theorem encodeIsInjectiveOnItsDomain : Obligations.EncodeIsInjectiveOnItsDomain := by
  refine ⟨fun t t' c c' r r' hlo hhi hlo' hhi' hc hc' h => ?_, fun t c r ht => ?_, fun t c r ht => ?_⟩
  · have hdecode := decodeFrame_encodeFrame t r hc
    rw [h, decodeFrame_encodeFrame t' r' hc', clampTorque_of_mem hlo hhi,
      clampTorque_of_mem hlo' hhi'] at hdecode
    obtain ⟨ht, hcnt, hreq⟩ := Instr.encode.inj (Except.ok.inj hdecode)
    exact ⟨ht.symm, hcnt.symm, hreq.symm⟩
  · refine encodeFrame_congr c r ?_
    rw [clampTorque_eq_max_min, clampTorque_eq_max_min]
    omega
  · refine encodeFrame_congr c r ?_
    rw [clampTorque_eq_max_min, clampTorque_eq_max_min]
    omega

/-- Settles O12: a producible frame is the frame of what it carries. -/
theorem producibleFramesAreTheEncodersRange : Obligations.ProducibleFramesAreTheEncodersRange := by
  refine ⟨fun f => ⟨fun h => ?_, ?_⟩, producible_iff_decodeFrame_ok, encodeFrame_coupled,
    fun f h => producible_toPort_mask h⟩
  · obtain ⟨hlo, hhi, hc⟩ := producible_operands_mem h
    exact ⟨_, _, _, hlo, hhi, hc, encodeFrame_of_producible h⟩
  · rintro ⟨t, c, r, -, -, -, rfl⟩
    exact encodeFrame_producible t c r

/-- Settles O15: the frame is the algorithm's, of the operands alone. -/
theorem encodeIsPureAndTotal : Obligations.EncodeIsPureAndTotal :=
  fun t c r => ⟨encodeFrame t c r, encodeFrame_fields t c r, fun _ => rfl⟩

end Sys2Proof.Proofs.FrameDecoder
end

section
/-! PROOFS. One tick (spec/41_control_loop.md R130 to R133; spec/60_exceptions.md R176, R178): the
operation an intent word selects obeys the mapper behind the gate, and what an emission leaves in each
field. -/

namespace Sys2Proof.Proofs.Tick

open Sys2Proof Sys2Proof.Machine Sys2Proof.Proofs.FrameDecoder

/-! ## What an emission leaves in each field -/

@[simp] theorem emit_run (t : Torque) (s : State) :
    (emit t s).run =
      if s.txErr = true ∧ s.cfg.txFailLimit ≤ s.failc + 1 then .stopped else s.run := by
  simp [emit]
@[simp] theorem emit_cause (t : Torque) (s : State) :
    (emit t s).cause =
      if s.txErr = true ∧ s.cfg.txFailLimit ≤ s.failc + 1 then .txFatal else s.cause := by
  simp [emit]
@[simp] theorem emit_cnt (t : Torque) (s : State) : (emit t s).cnt = s.cnt + 1#4 := by simp [emit]
@[simp] theorem emit_trq (t : Torque) (s : State) : (emit t s).trq = t := by simp [emit]
@[simp] theorem emit_failc (t : Torque) (s : State) :
    (emit t s).failc = if s.txErr then s.failc + 1 else 0 := by simp [emit]
@[simp] theorem emit_ptimer (t : Torque) (s : State) : (emit t s).ptimer = s.ptimer := by simp [emit]
@[simp] theorem emit_cfg (t : Torque) (s : State) : (emit t s).cfg = s.cfg := by simp [emit]
@[simp] theorem emit_rst (t : Torque) (s : State) : (emit t s).rst = s.rst := by simp [emit]
@[simp] theorem emit_tx (t : Torque) (s : State) :
    (emit t s).tx = some (encodeFrame t.toInt s.cnt.toNat (requestFlag t)) := by simp [emit]
@[simp] theorem emit_encOut (t : Torque) (s : State) :
    (emit t s).encOut = some (encodeFrame t.toInt s.cnt.toNat (requestFlag t)) := by simp [emit]
@[simp] theorem emit_trace (t : Torque) (s : State) :
    (emit t s).trace = s.trace ++ [⟨commandId, encodeFrame t.toInt s.cnt.toNat (requestFlag t),
      s.cfg.busIndex, txAnswer s⟩] := by
  rw [emit, countAnswer_trace]
  rfl
@[simp] theorem emit_pending (t : Torque) (s : State) : (emit t s).pending = s.pending := by
  simp [emit]

/-! ## The mapper's rows -/

/-- The rows of the opcode map (30_encoding.md R85). -/
theorem intentWord_rows (iw : IntentWord) :
    (∃ code : BitVec 3, iw = 0#1 ++ code) ∨ iw = 0b1000#4 ∨ iw = 0b1001#4 ∨ iw = 0b1010#4 ∨
      iw = 0b1011#4 ∨ ∃ low : BitVec 2, iw = 0b11#2 ++ low := by
  revert iw
  decide

/-- R140: without VALID the mapper answers the idle torque. -/
theorem mapIntent_idle {iw : IntentWord} (s : State) (h : iw.getLsbD 3 = false) :
    mapIntent iw s.trq s.cfg = .torque (idleTorque s) := by
  unfold mapIntent idleTorque
  simp only [h, Bool.false_eq_true, if_false]
  cases s.cfg.holdPolicy <;> rfl

/-- R135, R139: Neutral and the reserved codes answer torque 0. -/
theorem mapIntent_neutralWord {iw : IntentWord} (trq : Torque) (cfg : Config)
    (h : neutralWord iw = true) : mapIntent iw trq cfg = .torque 0#16 := by
  have hwords : ∀ iw, neutralWord iw = true →
      iw = 0b1000#4 ∨ iw = 0b1100#4 ∨ iw = 0b1101#4 ∨ iw = 0b1110#4 ∨ iw = 0b1111#4 := by decide
  obtain rfl | rfl | rfl | rfl | rfl := hwords iw h <;> rfl

/-- Every word but Quit answers a torque. -/
theorem mapIntent_torque {iw : IntentWord} (s : State) (h : iw ≠ quitWord) :
    ∃ t, mapIntent iw s.trq s.cfg = .torque t := by
  obtain ⟨code, rfl⟩ | rfl | rfl | rfl | rfl | ⟨low, rfl⟩ := intentWord_rows iw
  · exact ⟨_, mapIntent_idle s (by revert code; decide)⟩
  · exact ⟨_, rfl⟩
  · exact ⟨_, rfl⟩
  · exact ⟨_, rfl⟩
  · exact absurd rfl h
  · exact ⟨_, mapIntent_neutralWord _ _ (by revert low; decide)⟩

/-! ## The operations against the mapper -/

/-- What a tick does behind the open gate with the mapper's answer (R132). -/
def obey : MapResult → State → State
  | .quit, s => stop .quit s
  | .torque t, s => emit t s

/-- The gate reads its operation at one state only. -/
theorem tickGate_congr {op op' : State → State} {s : State} (h : op s = op' s) :
    tickGate op s = tickGate op' s := by
  unfold tickGate
  rw [h]

/-- The operation of every intent word is the mapper's answer behind the gate. -/
theorem exec_intentWord_eq (iw : IntentWord) (s : State) :
    exec (decodeIntentWord iw) s = .next (tickGate (obey (mapIntent iw s.trq s.cfg)) s) := by
  obtain ⟨hnone, hneutral, hleft, hright, hquit, hrsvd, -⟩ := intentCodesSelectTheirOperation
  obtain ⟨code, rfl⟩ | rfl | rfl | rfl | rfl | ⟨low, rfl⟩ := intentWord_rows iw
  · rw [hnone, mapIntent_idle s (by revert code; decide)]
    exact congrArg Host.Outcome.next (tickGate_congr rfl)
  · rw [hneutral]
    exact congrArg Host.Outcome.next (tickGate_congr rfl)
  · rw [hleft]
    exact congrArg Host.Outcome.next (tickGate_congr rfl)
  · rw [hright]
    exact congrArg Host.Outcome.next (tickGate_congr rfl)
  · rw [hquit]
    exact congrArg Host.Outcome.next (tickGate_congr rfl)
  · rw [hrsvd, mapIntent_neutralWord _ _ (by revert low; decide)]
    exact congrArg Host.Outcome.next (tickGate_congr rfl)

/-- Behind the open gate the operation obeys the mapper. -/
theorem exec_intentWord_open (iw : IntentWord) {s : State} (hrun : s.run = .running)
    (herr : s.inErr = false) :
    exec (decodeIntentWord iw) s = .next (obey (mapIntent iw s.trq s.cfg) s) := by
  rw [exec_intentWord_eq, tickGate_open _ hrun herr]

/-! ## The obligations -/

/-- Settles O22: `obey` is a stop or an emission. -/
theorem operationsFollowTheMapper : Obligations.OperationsFollowTheMapper := by
  intro iw s hrun herr
  refine ⟨_, exec_intentWord_open iw hrun herr, ?_⟩
  cases mapIntent iw s.trq s.cfg with
  | quit => exact stop_stops .quit s
  | torque t => exact emit_emits t s

/-- Settles O25: the word's operation is one emission, whose answer is counted. -/
theorem transportAnswersAreCounted : Obligations.TransportAnswersAreCounted := by
  intro iw s hrun herr hiw
  obtain ⟨t, ht⟩ := mapIntent_torque s hiw
  have hexec := exec_intentWord_open iw hrun herr
  rw [ht] at hexec
  refine ⟨emit t s, _, hexec, emit_trace t s, emit_tx t s, emit_cnt t s, ?_, ?_, ?_, ?_⟩
  · intro hok
    simp [txAnswer, hok, hrun]
  · intro hfail
    simp [txAnswer, hfail]
  · intro hfail hlimit
    have hbelow : ¬s.cfg.txFailLimit ≤ s.failc + 1 := Nat.not_le.mpr hlimit
    simp [hbelow, hrun]
  · intro hfail hlimit
    simp [hfail, hlimit]

/-- Settles O23: the gate takes the exception before the operation. -/
theorem inputErrorStopsTheBlock : Obligations.InputErrorStopsTheBlock := by
  intro iw s hrun herr
  refine ⟨_, exec_intentWord_eq iw s, ?_⟩
  rw [tickGate_inErr _ hrun herr]
  exact raise_stops .inputDevice s

/-- Settles O24: the gate lets nothing through. -/
theorem stoppedTicksDoNothing : Obligations.StoppedTicksDoNothing := by
  intro iw s hrun
  rw [exec_intentWord_eq, tickGate_stopped _ hrun]

theorem holdPolicyBit_zero_or_one (c : CfgPins) : c.holdPolicyBit = 0#1 ∨ c.holdPolicyBit = 1#1 := by
  generalize c.holdPolicyBit = b
  revert b
  decide

/-- Settles O52: the strap's two values and the policies they code; the idle tick is O20's. -/
theorem holdPolicyStrapSelectsTheIdleTorque : Obligations.HoldPolicyStrapSelectsTheIdleTorque := by
  refine ⟨fun c => ?_, fun code s hrun herr => ?_⟩
  · obtain hbit | hbit := holdPolicyBit_zero_or_one c
    · simp [holdPolicy_of_bit_zero hbit, hbit, HoldPolicy.bit]
    · simp [holdPolicy_of_bit_one hbit, hbit, HoldPolicy.bit]
  · obtain ⟨-, hidle⟩ := ControlLoop.idleTickFollowsTheHoldPolicy code
    obtain ⟨s', hexec, hlatch, hneutral⟩ := hidle s hrun herr
    exact ⟨s', hexec, fun hbit => hlatch (holdPolicy_of_bit_zero hbit),
      fun hbit => hneutral (holdPolicy_of_bit_one hbit)⟩

end Sys2Proof.Proofs.Tick
end

section
/-! PROOFS. One step (spec/60_exceptions.md R184, R190 to R193; spec/70_reset_and_hazards.md R210,
R216): what the step of each event is, and, said once, the five things a step can do to the block. -/

namespace Sys2Proof.Proofs.Step

open Sys2Proof Sys2Proof.Machine Sys2Proof.Proofs.FrameDecoder Sys2Proof.Proofs.Tick

/-! ## The start of an event -/

/-- `m` is `s` where the operation of a tick with the inputs `p` begins: the registers of `s`, the
inputs on the ports, the strobes low, the timer of a Running block restarted. -/
structure SampledFrom (p : InPorts) (s m : State) : Prop where
  run : m.run = s.run
  cause : m.cause = s.cause
  cnt : m.cnt = s.cnt
  trq : m.trq = s.trq
  failc : m.failc = s.failc
  ptimer : m.ptimer = if s.run = .running then 0 else s.ptimer
  cfg : m.cfg = s.cfg
  rst : m.rst = p.rst
  inErr : m.inErr = p.inErr
  txErr : m.txErr = p.txErr
  tx : m.tx = none
  encOut : m.encOut = none
  trace : m.trace = s.trace

theorem sampledFrom_sampled (p : InPorts) (s : State) (rest : List Stimulus) (k : Nat) :
    SampledFrom p s (sampled p (lowerStrobes { s with pending := rest, freeStep := k })) := by
  constructor
  case ptimer => exact restartTimer_ptimer _
  all_goals simp [sampled]

/-- The state in which a scheduled tick's operation runs, field by field. -/
theorem sampled_lowerStrobes_eq (p : InPorts) (s : State) :
    sampled p (lowerStrobes s) =
      { s with
        tx := none, encOut := none, rst := p.rst, iw := p.iw, inErr := p.inErr, txErr := p.txErr
        ptimer := if s.run = .running then 0 else s.ptimer } := by
  unfold sampled restartTimer
  cases hrun : s.run <;> simp [hrun, present, lowerStrobes]

/-- Reading the environment takes at most the head off the schedule and draws at most one input. -/
theorem nextStimulus_rest {s r : State} {x : Stimulus} (h : nextStimulus s = (x, r)) :
    ∃ k, r = { s with pending := s.pending.tail, freeStep := k } := by
  obtain ⟨y, rest, hp, hnext⟩ | ⟨hp, hnext⟩ := nextStimulus_cases s
  all_goals
    obtain ⟨-, rfl⟩ := Prod.mk.inj (hnext.symm.trans h)
    exact ⟨_, by rw [hp]; rfl⟩

theorem nextStimulus_of_pending {s : State} {x : Stimulus} {rest : List Stimulus}
    (h : s.pending = x :: rest) : nextStimulus s = (x, { s with pending := rest }) := by
  unfold nextStimulus
  rw [h]

/-- An event that no free tick can be was scheduled. -/
theorem pending_of_nextStimulus {s r : State} {x : Stimulus} (h : nextStimulus s = (x, r))
    (hx : ∀ p, x ≠ .tick p) : ∃ rest, s.pending = x :: rest := by
  obtain ⟨y, rest, hp, hnext⟩ | ⟨-, hnext⟩ := nextStimulus_cases s
  · obtain ⟨rfl, -⟩ := Prod.mk.inj (hnext.symm.trans h)
    exact ⟨rest, hp⟩
  · obtain ⟨rfl, -⟩ := Prod.mk.inj (hnext.symm.trans h)
    exact absurd rfl (hx _)

/-! ## The step of each scheduled event -/

section Scheduled

variable {p : InPorts} {s : State} {rest : List Stimulus}

/-- A tick in reset. -/
theorem step_tick_reset (h : s.pending = .tick p :: rest) (hrst : p.rst = true) :
    step s = .next (doReset (present p (lowerStrobes { s with pending := rest }))) := by
  rw [step_of_pending h, onStimulus, onTick, if_pos hrst]

/-- A clock edge in reset. -/
theorem step_edge_reset (h : s.pending = .edge p :: rest) (hrst : p.rst = true) :
    step s = .next (doReset (present p (lowerStrobes { s with pending := rest }))) := by
  rw [step_of_pending h, onStimulus, onEdge, if_pos hrst]

/-- A tick runs the operation its word selects. -/
theorem step_tick (h : s.pending = .tick p :: rest) (hrst : p.rst = false) :
    step s = exec (decodeIntentWord p.iw) (sampled p (lowerStrobes { s with pending := rest })) := by
  rw [step_of_pending h, onStimulus, onTick, hrst]
  rfl

/-- In the last cycle of a period an edge is a tick. -/
theorem step_edge_last (h : s.pending = .edge p :: rest) (hrst : p.rst = false)
    (hrun : s.run = .running) (hlast : s.ptimer = s.cfg.periodCycles - 1) :
    step s = step { s with pending := .tick p :: rest } := by
  rw [step_of_pending h, step_of_pending (s := { s with pending := .tick p :: rest }) rfl]
  simp [onStimulus, onEdge, hrst, hrun, hlast]

/-- In any other cycle an edge counts. -/
theorem step_edge_counts (h : s.pending = .edge p :: rest) (hrst : p.rst = false)
    (hrun : s.run = .running) (hlast : s.ptimer ≠ s.cfg.periodCycles - 1) :
    step s = .next { present p (lowerStrobes { s with pending := rest }) with
      ptimer := s.ptimer + 1 } := by
  rw [step_of_pending h]
  simp [onStimulus, onEdge, hrst, hrun, hlast]

/-- In Stopped an edge only shows its inputs. -/
theorem step_edge_stopped (h : s.pending = .edge p :: rest) (hrst : p.rst = false)
    (hrun : s.run = .stopped) :
    step s = .next (present p (lowerStrobes { s with pending := rest })) := by
  rw [step_of_pending h]
  simp [onStimulus, onEdge, hrst, hrun]

/-- A tick in Stopped only shows its inputs. -/
theorem step_tick_stopped (h : s.pending = .tick p :: rest) (hrst : p.rst = false)
    (hrun : s.run = .stopped) :
    ∃ m, SampledFrom p s m ∧ m.pending = rest ∧ step s = .next m := by
  have hm := sampledFrom_sampled p s rest s.freeStep
  refine ⟨_, hm, by simp [sampled], ?_⟩
  rw [step_tick h hrst, exec_intentWord_eq, tickGate_stopped _ (hm.run.trans hrun)]

/-- A tick of a Running block without an input error obeys the mapper. -/
theorem step_tick_open (h : s.pending = .tick p :: rest) (hrst : p.rst = false)
    (hrun : s.run = .running) (herr : p.inErr = false) :
    ∃ m, SampledFrom p s m ∧ m.pending = rest ∧
      step s = .next (obey (mapIntent p.iw s.trq s.cfg) m) := by
  have hm := sampledFrom_sampled p s rest s.freeStep
  refine ⟨_, hm, by simp [sampled], ?_⟩
  rw [step_tick h hrst, exec_intentWord_open p.iw (hm.run.trans hrun) (hm.inErr.trans herr),
    hm.trq, hm.cfg]

/-- A tick of a Running block with an input error takes the exception. -/
theorem step_tick_inErr (h : s.pending = .tick p :: rest) (hrst : p.rst = false)
    (hrun : s.run = .running) (herr : p.inErr = true) :
    ∃ m, SampledFrom p s m ∧ step s = .next (raise .inputDevice m) := by
  have hm := sampledFrom_sampled p s rest s.freeStep
  refine ⟨_, hm, ?_⟩
  rw [step_tick h hrst, exec_intentWord_eq, tickGate_inErr _ (hm.run.trans hrun)
    (hm.inErr.trans herr)]

end Scheduled

/-! ## Everything a step can do -/

/-- The five things a step from `s` to `s'` can do to the block. -/
inductive StepEffect (s s' : State) : Prop
  /-- reset, asserted by the event -/
  | resets (asserted : assertsReset (nextStimulus s).1 = true) (atReset : AtReset s')
      (rst : s'.rst = true) (tx : s'.tx = none) (encOut : s'.encOut = none)
  /-- no register moves: an event in Stopped, a configuration, a direct call -/
  | stays (same : SameRegisters s s') (tx : s'.tx = none)
      (encOut : s'.encOut = none ∨ ∃ f rest, s.pending = .call f :: rest ∧ s'.encOut = some f)
      (rst : s'.rst = true → s.rst = true)
      (cfg : s'.cfg = s.cfg ∨ s.rst = true ∨ s.run = .stopped)
  /-- a clock edge before the last cycle of the period -/
  | counts (running : s.run = .running) (phase : s.ptimer ≠ s.cfg.periodCycles - 1)
      (same : SameRegisters { s with ptimer := s.ptimer + 1 } s') (cfg : s'.cfg = s.cfg)
      (rst : s'.rst = false) (tx : s'.tx = none) (encOut : s'.encOut = none)
  /-- a tick that stops the block before anything is emitted -/
  | stops (p : InPorts) (m : State) (c : Cause) (sampled : SampledFrom p s m) (released : p.rst = false)
      (running : s.run = .running) (cause : c = .quit ∨ c = .inFatal) (next : s' = stop c m)
  /-- a tick that emits -/
  | emits (p : InPorts) (m : State) (t : Torque) (sampled : SampledFrom p s m)
      (released : p.rst = false) (running : s.run = .running) (commands : Commands t s)
      (next : s' = emit t m)

/-- A state that differs from `m` in no register differs from `s` in none, where `m` was sampled from
a Stopped `s`. -/
theorem SampledFrom.sameRegisters {p : InPorts} {s m : State} (h : SampledFrom p s m)
    (hrun : s.run = .stopped) : SameRegisters s m where
  run := h.run
  cause := h.cause
  cnt := h.cnt
  trq := h.trq
  failc := h.failc
  ptimer := by simp [h.ptimer, hrun]
  trace := h.trace

/-- The operation of a tick, as an effect on the state it was sampled from. -/
theorem exec_stepEffect {p : InPorts} {s m s' : State} (hm : SampledFrom p s m)
    (hrst : p.rst = false) (h : exec (decodeIntentWord p.iw) m = .next s') : StepEffect s s' := by
  obtain ⟨s₁, hexec, hcases⟩ := exec_intentWord_cases p.iw m
  obtain rfl : s₁ = s' := Host.Outcome.next.inj (hexec.symm.trans h)
  obtain ⟨hrun, rfl⟩ | ⟨hrun, -, rfl⟩ | ⟨hrun, -, -, rfl⟩ | ⟨hrun, -, -, t, ht, rfl⟩ := hcases
  · have hstopped : s.run = .stopped := hm.run.symm.trans hrun
    refine .stays (hm.sameRegisters hstopped) hm.tx (.inl hm.encOut) ?_ (.inl hm.cfg)
    rw [hm.rst, hrst]
    exact fun h => absurd h Bool.false_ne_true
  · exact .stops p m .inFatal hm hrst (hm.run.symm.trans hrun) (.inr rfl) rfl
  · exact .stops p m .quit hm hrst (hm.run.symm.trans hrun) (.inl rfl) rfl
  · rw [Commands, hm.cfg, hm.trq] at ht
    exact .emits p m t hm hrst (hm.run.symm.trans hrun) ht rfl

/-- Everything a step can do, in terms of the registers. -/
theorem step_effect {s s' : State} (h : step s = .next s') : StepEffect s s' := by
  obtain ⟨x, r, hnext, hcases⟩ := step_cases h
  obtain ⟨k, rfl⟩ := nextStimulus_rest hnext
  obtain ⟨p, hrst, hx, rfl⟩ | ⟨p, hrst, -, hexec⟩ | ⟨p, -, hrst, hrun, hphase, rfl⟩ |
    ⟨p, -, hrst, -, rfl⟩ | ⟨c, -, hc, rfl⟩ | ⟨f, rfl, hf, rfl⟩ := hcases
  · refine .resets (by rw [hnext]; exact hrst) (doReset_atReset _) ?_ rfl rfl
    obtain rfl | rfl := hx <;> exact hrst
  · exact exec_stepEffect (sampledFrom_sampled p s _ k) hrst hexec
  · exact .counts hrun hphase ⟨rfl, rfl, rfl, rfl, rfl, rfl, rfl⟩ rfl hrst rfl rfl
  · exact .stays ⟨rfl, rfl, rfl, rfl, rfl, rfl, rfl⟩ rfl (.inl rfl)
      (fun h => absurd (hrst.symm.trans h) Bool.false_ne_true) (.inl rfl)
  · refine .stays ⟨rfl, rfl, rfl, rfl, rfl, rfl, rfl⟩ rfl (.inl rfl) id ?_
    obtain hreset | hstopped | hsame := hc
    · exact .inr (.inl hreset)
    · exact .inr (.inr hstopped)
    · exact .inl hsame
  · obtain ⟨rest, hpending⟩ := pending_of_nextStimulus hnext (fun p => Stimulus.noConfusion)
    have hframe := encodeFrame_of_producible ((defect_eq_none_iff f).mp hf)
    refine .stays ⟨rfl, rfl, rfl, rfl, rfl, rfl, rfl⟩ rfl (.inr ⟨f, rest, hpending, ?_⟩) id
      (.inl rfl)
    rw [driveEncoder_encOut, hframe]

/-- An emission in terms of the state before the step: the frame, and its event of the trace. -/
theorem SampledFrom.emit_frame {p : InPorts} {s m : State} (hm : SampledFrom p s m) (t : Torque) :
    ∃ f, FrameFields t.toInt s.cnt.toNat (decide (t ≠ 0#16)) f ∧ (emit t m).tx = some f ∧
      (emit t m).trace = s.trace ++ [⟨0x340#11, f, s.cfg.busIndex, if p.txErr then .err else .ok⟩] := by
  have hsends := (emit_emits t m).sends
  rwa [hm.cnt, hm.trace, hm.cfg, hm.txErr] at hsends

/-- The release asks for the collaborators, then for the legal configuration. -/
theorem release_eq_some_iff {l : Startup} {s : State} :
    release l = some s ↔ CollaboratorsAcquired l ∧
      ∃ h : l.pins.wf = true, { State.reset with cfg := { l.pins with legal := h } } = s := by
  unfold release CollaboratorsAcquired
  simp only [Bool.and_eq_true]
  split_ifs with hacquired hwf
  · simp [hacquired, hwf]
  · simp [hwf]
  · simp [hacquired]

/-! ## The obligations on one step -/

/-- Settles O26: the reset state's fields. -/
theorem resetLeavesTheListedValues : Obligations.ResetLeavesTheListedValues :=
  ⟨rfl, rfl, rfl, rfl, rfl, rfl, rfl, rfl, rfl⟩

/-- Settles O27: a tick and an edge in reset are the same reset. -/
theorem resetDominatesEveryEvent : Obligations.ResetDominatesEveryEvent := by
  intro p rest s hp hrst
  have hstep : step s = .next (doReset (present p (lowerStrobes { s with pending := rest }))) :=
    hp.elim (step_tick_reset · hrst) (step_edge_reset · hrst)
  exact ⟨_, hstep, doReset_atReset _, rfl, rfl, hrst, rfl, rfl, rfl⟩

/-- Settles O31: what a release asks for, and the state it gives. -/
theorem startupReleasesResetOrNothing : Obligations.StartupReleasesResetOrNothing := by
  intro l
  refine ⟨⟨?_, ?_⟩, ?_⟩
  · rintro ⟨s, hs⟩
    obtain ⟨hacquired, hwf, -⟩ := release_eq_some_iff.mp hs
    exact ⟨hacquired, hwf⟩
  · rintro ⟨hacquired, hwf⟩
    exact ⟨_, release_eq_some_iff.mpr ⟨hacquired, hwf, rfl⟩⟩
  · intro s hs
    obtain ⟨-, hwf, rfl⟩ := release_eq_some_iff.mp hs
    exact ⟨⟨rfl, rfl, rfl, rfl, rfl, rfl, rfl⟩, rfl, rfl, rfl⟩

/-- Settles O32: the two answers of a driven configuration. -/
theorem configurationIsStableInARun : Obligations.ConfigurationIsStableInARun := by
  intro c rest s hp
  have hstep : step s = onStraps c (lowerStrobes { s with pending := rest }) := step_of_pending hp
  rw [hstep]
  refine ⟨fun hrun hrst hc => ?_, fun htaken => ?_⟩
  · exact if_neg (by simp [hrun, hrst, hc])
  · refine ⟨_, if_pos ?_, rfl, ⟨rfl, rfl, rfl, rfl, rfl, rfl, rfl⟩, rfl⟩
    obtain hstopped | hreset | hsame := htaken
    · exact .inr (.inl hstopped)
    · exact .inl hreset
    · exact .inr (.inr hsame)

/-- Settles O33: the codes of `run` and `cause`, one by one. -/
theorem statusOutputsShowTheRegisters : Obligations.StatusOutputsShowTheRegisters := by
  intro s
  refine ⟨?_, ?_, ?_, ?_, ?_, ?_, rfl, rfl, rfl, rfl, ?_⟩
  · cases hrun : s.run <;> simp [stRun, hrun]
  · cases hrun : s.run <;> simp [stRun, hrun]
  · cases hcause : s.cause <;> simp [stCause, hcause]
  · cases hcause : s.cause <;> simp [stCause, hcause]
  · cases hcause : s.cause <;> simp [stCause, hcause]
  · cases hcause : s.cause <;> simp [stCause, hcause]
  · cases htx : s.tx <;> simp [txValid, txData, htx]

/-- Settles O34: the sampled state of a tick written out, and the call's decoding. -/
theorem stepRunsTheDecodedOperation : Obligations.StepRunsTheDecodedOperation := by
  refine ⟨fun p rest s hp hrst => ?_, fun f i rest s hp hf => ?_⟩
  · rw [step_tick hp hrst, sampled_lowerStrobes_eq, hrst]
  · rw [step_of_pending hp, onStimulus, onCall, hf]
    rfl

/-- Settles O40: the three steps of an edge. -/
theorem clockEdgeCountsOrTicks : Obligations.ClockEdgeCountsOrTicks := by
  intro p rest s hp hrst
  refine ⟨step_edge_last hp hrst, fun hrun hlast => ?_, fun hrun => ?_⟩
  · exact ⟨_, step_edge_counts hp hrst hrun hlast, rfl, hrun, rfl, rfl, rfl, rfl, rfl, rfl⟩
  · exact ⟨_, step_edge_stopped hp hrst hrun, ⟨rfl, rfl, rfl, rfl, rfl, rfl, rfl⟩, rfl⟩

/-- Settles O36: the decoder accepts the producible frames, and they are the frames of what they
carry. -/
theorem directCallReproducesTheFrame : Obligations.DirectCallReproducesTheFrame := by
  intro f rest s hp
  have hstep : step s = onCall f (lowerStrobes { s with pending := rest }) := step_of_pending hp
  rw [hstep]
  refine ⟨fun hf => ?_, fun hf => ?_⟩
  · rw [onCall, decodeFrame_of_producible hf]
    exact congrArg (fun g => Host.Outcome.next { s with pending := rest, tx := none, encOut := some g })
      (encodeFrame_of_producible hf)
  · obtain ⟨e, hdefect, hcall⟩ | ⟨hdefect, -⟩ := onCall_cases f (lowerStrobes { s with pending := rest })
    · exact ⟨e, hdefect, hcall⟩
    · exact absurd ((defect_eq_none_iff f).mp hdefect) hf

/-- Settles O28: the branches of R184, each the step of a tick of its kind. -/
theorem tickFollowsThePriorityOrder : Obligations.TickFollowsThePriorityOrder := by
  intro p rest s hp
  cases hrst : p.rst with
  | true => exact ⟨_, step_tick_reset hp hrst, by simpa using doReset_atReset _⟩
  | false =>
    cases hrun : s.run with
    | stopped =>
      obtain ⟨m, hm, -, hstep⟩ := step_tick_stopped hp hrst hrun
      exact ⟨m, hstep, by simpa using ⟨hm.sameRegisters hrun, hm.tx⟩⟩
    | running =>
      cases herr : p.inErr with
      | true =>
        obtain ⟨m, hm, hstep⟩ := step_tick_inErr hp hrst hrun herr
        exact ⟨_, hstep, by simp [causeOf, hm.cnt, hm.trq, hm.failc, hm.trace, hm.tx]⟩
      | false =>
        obtain ⟨m, hm, -, hstep⟩ := step_tick_open hp hrst hrun herr
        by_cases hquit : p.iw = 0b1011#4
        · rw [hquit] at hstep
          exact ⟨stop .quit m, hstep, by
            simp [hquit, hm.cnt, hm.trq, hm.failc, hm.trace, hm.tx]⟩
        · obtain ⟨t, ht⟩ := mapIntent_torque s hquit
          rw [ht] at hstep
          refine ⟨emit t m, hstep, ?_⟩
          simp only [hquit, Bool.false_eq_true, or_self, if_false, reduceCtorEq]
          refine ⟨⟨_, hm.trace ▸ emit_trace t m, emit_tx t m⟩, hm.cnt ▸ emit_cnt t m, ?_⟩
          rw [emit_run, emit_cause, hm.txErr, hm.cfg, hm.failc, hm.run, hm.cause, hrun]
          split <;> exact ⟨rfl, rfl⟩

/-- Settles O29: of the five effects only the reset and the rest without a change leave Stopped. -/
theorem onlyResetLeavesStopped : Obligations.OnlyResetLeavesStopped := by
  intro s s' h hstopped
  cases step_effect h with
  | resets _ atReset rst => exact .inr ⟨rst, atReset⟩
  | stays same => exact .inl same
  | counts running => exact absurd (running.symm.trans hstopped) (by decide)
  | stops _ _ _ _ _ running => exact absurd (running.symm.trans hstopped) (by decide)
  | emits _ _ _ _ _ running => exact absurd (running.symm.trans hstopped) (by decide)

/-- Settles O30: a step out of Running is a silent stop or an emission whose answer stops. -/
theorem stopsArePrecise : Obligations.StopsArePrecise := by
  intro s s' h hrunning hstopped
  cases step_effect h with
  | resets _ atReset => exact absurd (atReset.run.symm.trans hstopped) (by decide)
  | stays same => exact absurd (hrunning.symm.trans (same.run.symm.trans hstopped)) (by decide)
  | counts _ _ same => exact absurd (hrunning.symm.trans (same.run.symm.trans hstopped)) (by decide)
  | stops p m c hm _ _ hcause next =>
    subst next
    exact .inl ⟨hm.tx, hm.trace, hm.cnt, hm.trq, hm.failc, hcause⟩
  | emits p m t hm _ _ _ next =>
    subst next
    obtain ⟨f, hfields, htx, htrace⟩ := hm.emit_frame t
    rw [emit_run, hm.run, hrunning] at hstopped
    obtain ⟨hfail, hlimit⟩ : m.txErr = true ∧ m.cfg.txFailLimit ≤ m.failc + 1 := by
      by_contra hno
      rw [if_neg hno] at hstopped
      exact absurd hstopped (by decide)
    have hanswer : p.txErr = true := hm.txErr.symm.trans hfail
    rw [hanswer, if_pos rfl] at htrace
    refine .inr ⟨?_, hm.cnt ▸ emit_cnt t m, ?_, ?_, f, htx, htrace, (emit_trq t m).symm ▸ hfields⟩
    · rw [emit_cause, if_pos ⟨hfail, hlimit⟩]
    · rw [emit_failc, if_pos hfail, hm.failc]
    · rwa [emit_failc, if_pos hfail, ← hm.cfg]

/-- Settles O37: only an emission hands a frame over. -/
theorem eachStepSendsAtMostOneFrame : Obligations.EachStepSendsAtMostOneFrame := by
  intro s s' h
  cases step_effect h with
  | resets _ atReset rst tx => exact .inr (.inl ⟨tx, atReset, rst⟩)
  | stays same tx => exact .inl ⟨tx, same.trace, same.cnt⟩
  | counts _ _ same _ _ tx => exact .inl ⟨tx, same.trace, same.cnt⟩
  | stops p m c hm _ _ _ next =>
    subst next
    exact .inl ⟨hm.tx, hm.trace, hm.cnt⟩
  | emits p m t hm _ running _ next =>
    subst next
    obtain ⟨f, hfields, htx, htrace⟩ := hm.emit_frame t
    exact .inr (.inr ⟨f, _, htx, htrace, (emit_trq t m).symm ▸ hfields, hm.cnt ▸ emit_cnt t m, running⟩)

/-- Settles O38: an emission drives both lines, a direct call only the encoder's. -/
theorem encoderLinesCarryTheEmittedFrame : Obligations.EncoderLinesCarryTheEmittedFrame := by
  intro s s' h
  cases step_effect h with
  | resets _ _ _ tx encOut => exact .inl (encOut.trans tx.symm)
  | stays _ tx encOut =>
    obtain hnone | hcall := encOut
    · exact .inl (hnone.trans tx.symm)
    · exact .inr ⟨tx, hcall⟩
  | counts _ _ _ _ _ tx encOut => exact .inl (encOut.trans tx.symm)
  | stops p m c hm _ _ _ next =>
    subst next
    exact .inl (hm.encOut.trans hm.tx.symm)
  | emits p m t _ _ _ _ next =>
    subst next
    exact .inl ((emit_encOut t m).trans (emit_tx t m).symm)

/-! ## A placed table word -/

theorem tableBytes_one (w : Nat) : tableBytes 1 w = [BitVec.ofNat 8 w] := rfl

/-- A byte lane of a table word. -/
theorem extractLsb'_ofNat_64 (w k : Nat) (hk : k + 8 ≤ 64) :
    (BitVec.ofNat 64 w).extractLsb' k 8 = BitVec.ofNat 8 (w / 2 ^ k) := by
  apply BitVec.eq_of_getLsbD_eq
  intro i hi
  have hlane : k + i < 64 := by omega
  simp only [BitVec.getLsbD_extractLsb', BitVec.getLsbD_ofNat, Nat.testBit_div_two_pow, hi, hlane,
    decide_true, Bool.true_and, Nat.add_comm]

/-- The 8 bytes of a table word are the frame on the port. -/
theorem tableBytes_eight (w : Nat) :
    tableBytes 8 w = (Frame.ofPort (BitVec.ofNat 64 w)).toList := by
  simp only [Frame.ofPort, Frame.toList, extractLsb'_ofNat_64, Nat.reduceAdd, Nat.reduceLeDiff]
  simp only [tableBytes, Nat.div_div_eq_div_mul, Nat.reduceMul, Nat.reducePow, Nat.div_one]

theorem decode_toList (f : Frame) : decode f.toList = decodeFrame f := rfl

theorem decode_byte (b : Byte) :
    decode [b] = if b.toNat < 16 then .ok (decodeIntentWord (b.setWidth 4))
      else .error .intentWordTooWide := rfl

/-- A byte that decodes is an intent word with the upper bits 0 (log 7). -/
theorem decode_byte_ok {b : Byte} {i : Instr} (h : decode [b] = .ok i) :
    i = decodeIntentWord (b.setWidth 4) := by
  rw [decode_byte] at h
  split_ifs at h
  exact (Except.ok.inj h).symm

/-- What a table word that decodes stands for. -/
theorem decodeTableWord_cases {nbits w : Nat} {i : Instr} (h : decodeTableWord nbits w = some i) :
    (nbits ≤ 8 ∧ i = decodeIntentWord (BitVec.ofNat 4 w)) ∨
    (¬nbits ≤ 8 ∧ decodeFrame (Frame.ofPort (BitVec.ofNat 64 w)) = .ok i) := by
  have hok : ∀ {o : Except DecodeError Instr}, o.toOption = some i → o = .ok i := by
    intro o ho
    cases o with
    | error e => exact absurd ho (by simp [Except.toOption])
    | ok j => exact congrArg _ (Option.some.inj ho)
  unfold decodeTableWord at h
  by_cases hn : nbits ≤ 8
  · simp only [hn, if_true, tableBytes_one] at h
    split_ifs at h
    have hi := decode_byte_ok (hok h)
    rw [BitVec.setWidth_ofNat_of_le (by decide)] at hi
    exact .inl ⟨hn, hi⟩
  · simp only [hn, if_false, tableBytes_eight, decode_toList] at h
    split_ifs at h
    exact .inr ⟨hn, hok h⟩

/-- Settles O35: the placed event is a tick with that word or a call of that FRAME, and its step is
O34's. -/
theorem placedWordIsRunNext : Obligations.PlacedWordIsRunNext := by
  obtain ⟨htick, hcall⟩ := stepRunsTheDecodedOperation
  intro nbits w i s hdecode
  obtain ⟨hn, rfl⟩ | ⟨hn, hframe⟩ := decodeTableWord_cases hdecode
  · have hpending : (s.withFetchWord nbits w).pending = .tick ⟨false, BitVec.ofNat 4 w, false, false⟩ ::
        s.pending := by simp [State.withFetchWord, fetchStimulus, hn]
    rw [if_pos hn, htick _ _ _ hpending rfl]
    rfl
  · have hpending : (s.withFetchWord nbits w).pending = .call (Frame.ofPort (BitVec.ofNat 64 w)) ::
        s.pending := by simp [State.withFetchWord, fetchStimulus, hn]
    rw [if_neg hn, hcall _ _ _ _ hpending hframe]
    rfl

end Sys2Proof.Proofs.Step
end

section
/-! PROOFS. The invariant of every step (spec/10_state.md R36; spec/41_control_loop.md R144, R154,
R156), from the effects of a step, and what it says of the reachable states. -/

namespace Sys2Proof.Proofs.Invariant

open Sys2Proof Sys2Proof.Machine Sys2Proof.Proofs.FrameDecoder Sys2Proof.Proofs.Tick
  Sys2Proof.Proofs.Step Sys2Proof.Proofs.RollingCounter

/-! ## At the reset values -/

theorem txFailLimit_pos (c : Config) : 0 < c.txFailLimit := by
  have hlegal := c.legal
  simp only [CfgPins.wf, Bool.and_eq_true] at hlegal
  obtain ⟨⟨⟨-, hlimit⟩, -⟩, -⟩ := hlegal
  exact of_decide_eq_true hlimit

theorem periodCycles_pos (c : Config) : 0 < c.periodCycles := by
  have hlegal := c.legal
  simp only [CfgPins.wf, Bool.and_eq_true] at hlegal
  obtain ⟨⟨-, hcycles⟩, -⟩ := hlegal
  exact of_decide_eq_true hcycles

/-- The reset values have the invariant under every legal configuration. -/
theorem inv_of_atReset {s : State} (h : AtReset s) : Inv s where
  causeMatchesRun := by simp [h.cause, h.run]
  failuresBelowLimit _ := h.failc ▸ txFailLimit_pos s.cfg
  torque _ := .inl h.trq
  phase _ := h.ptimer ▸ periodCycles_pos s.cfg
  countsFrames := by simp [h.cnt, h.trace]
  events k e hk := by simp [h.trace] at hk
  busIndex _ e he := by simp [h.trace] at he
  resetHeld _ := h

theorem atReset_of_sameRegisters {s s' : State} (h : SameRegisters s s') (hs : AtReset s) :
    AtReset s' where
  run := h.run.trans hs.run
  cause := h.cause.trans hs.cause
  cnt := h.cnt.trans hs.cnt
  trq := h.trq.trans hs.trq
  failc := h.failc.trans hs.failc
  ptimer := h.ptimer.trans hs.ptimer
  trace := h.trace.trans hs.trace

/-! ## The sent frames -/

/-- The frame of an emission is a sound event. -/
theorem soundEvent_of_frameFields {t : Torque} {c k : Nat} {f : Frame} (busIndex : BitVec 8)
    (result : TxAnswer) (h : FrameFields t.toInt c (decide (t ≠ 0#16)) f) (hc : c % 16 = k % 16) :
    SoundEvent k ⟨0x340#11, f, busIndex, result⟩ where
  identifier := rfl
  producible := frameFields_producible h
  coupled := (encodeFrame_fields _ _ _).unique h ▸ encodeFrame_coupled t c
  counter := by
    have hnibble := frameFields_counter h
    rw [BitVec.toNat_ushiftRight, Nat.shiftRight_eq_div_pow] at hnibble
    exact hnibble.trans hc

/-! ## Every effect keeps the invariant -/

/-- The emitted torque is a commanded one: it is 0, a step, or the one already held. -/
theorem torqueIsCommanded_emit {p : InPorts} {s m : State} {t : Torque} (hm : SampledFrom p s m)
    (hs : TorqueIsCommanded s) (ht : Commands t s) : TorqueIsCommanded (emit t m) := by
  rw [TorqueIsCommanded, emit_trq, emit_cfg, hm.cfg]
  obtain hzero | hright | hleft | ⟨rfl, -⟩ := ht
  · exact .inl hzero
  · exact .inr (.inl hright)
  · exact .inr (.inr hleft)
  · exact hs

section Effects

variable {s s' : State} (hs : Inv s)
include hs

/-- No register but the timer moves, and a Running block keeps its configuration. -/
theorem inv_of_sameButTimer {n : Nat} (h : SameRegisters { s with ptimer := n } s')
    (hphase : s.run = .running → n < s.cfg.periodCycles)
    (hcfg : s.run = .running → s'.cfg = s.cfg) (hreset : s'.rst = true → AtReset s') : Inv s' where
  causeMatchesRun := by rw [h.cause, h.run]; exact hs.causeMatchesRun
  failuresBelowLimit hrun := by
    rw [h.run] at hrun
    rw [h.failc, hcfg hrun]
    exact hs.failuresBelowLimit hrun
  torque hrun := by
    rw [h.run] at hrun
    rw [TorqueIsCommanded, h.trq, hcfg hrun]
    exact hs.torque hrun
  phase hrun := by
    rw [h.run] at hrun
    rw [h.ptimer, hcfg hrun]
    exact hphase hrun
  countsFrames := by rw [h.cnt, h.trace]; exact hs.countsFrames
  events := by rw [h.trace]; exact hs.events
  busIndex hrun := by
    rw [h.run] at hrun
    rw [h.trace, hcfg hrun]
    exact hs.busIndex hrun
  resetHeld := hreset

/-- A stop leaves the invariant's clauses on a Running block without a subject. -/
theorem inv_stop {p : InPorts} {m : State} {c : Cause} (hm : SampledFrom p s m)
    (hrst : p.rst = false) (hc : c ≠ .none) : Inv (stop c m) where
  causeMatchesRun := by simp [hc]
  failuresBelowLimit hrun := by cases hrun
  torque hrun := by cases hrun
  phase hrun := by cases hrun
  countsFrames := by rw [stop_cnt, stop_trace, hm.cnt, hm.trace]; exact hs.countsFrames
  events := by rw [stop_trace, hm.trace]; exact hs.events
  busIndex hrun := by cases hrun
  resetHeld h := by rw [stop_rst, hm.rst, hrst] at h; cases h

/-- An emission appends one sound event, numbered by the counter. -/
theorem events_emit {p : InPorts} {m : State} (hm : SampledFrom p s m) (t : Torque) (k : Nat)
    (e : SendEvent) (hk : (emit t m).trace[k]? = some e) : SoundEvent k e := by
  obtain ⟨f, hfields, -, htrace⟩ := hm.emit_frame t
  rw [htrace] at hk
  obtain hold | ⟨hlast, rfl⟩ := getElem?_append_singleton_cases hk
  · exact hs.events k e hold
  · refine soundEvent_of_frameFields _ _ hfields ?_
    rw [hlast, ← hs.countsFrames, Nat.mod_eq_of_lt s.cnt.isLt]

theorem countsFrames_emit {p : InPorts} {m : State} (hm : SampledFrom p s m) (t : Torque) :
    (emit t m).cnt.toNat = (emit t m).trace.length % 16 := by
  rw [(emit_emits t m).cnt, emit_trace, List.length_append, List.length_singleton, hm.cnt, hm.trace,
    hs.countsFrames]
  omega

theorem inv_emit {p : InPorts} {m : State} {t : Torque} (hm : SampledFrom p s m)
    (hrst : p.rst = false) (hrun : s.run = .running) (ht : Commands t s) : Inv (emit t m) where
  causeMatchesRun := by
    have hcause : s.cause = .none := hs.causeMatchesRun.mpr hrun
    rw [emit_run, emit_cause, hm.run, hm.cause, hrun, hcause]
    split <;> decide
  failuresBelowLimit hstill := by
    have hno : ¬(m.txErr = true ∧ m.cfg.txFailLimit ≤ m.failc + 1) := by
      intro hstops
      rw [emit_run, if_pos hstops] at hstill
      cases hstill
    rw [emit_failc, emit_cfg]
    split_ifs with hfail
    · exact Nat.not_le.mp fun hle => hno ⟨hfail, hle⟩
    · exact txFailLimit_pos m.cfg
  torque _ := torqueIsCommanded_emit hm (hs.torque hrun) ht
  phase _ := by
    rw [emit_ptimer, emit_cfg, hm.ptimer, if_pos hrun]
    exact periodCycles_pos m.cfg
  countsFrames := countsFrames_emit hs hm t
  events := events_emit hs hm t
  busIndex _ e he := by
    rw [emit_trace, List.mem_append, List.mem_singleton, hm.trace] at he
    rw [emit_cfg, hm.cfg]
    obtain hold | rfl := he
    · exact hs.busIndex hrun e hold
    · exact congrArg (·.busIndex) hm.cfg
  resetHeld h := by rw [emit_rst, hm.rst, hrst] at h; cases h

/-- The next phase of a timer that is not in the last cycle of its period. -/
theorem succ_phase_lt (hrun : s.run = .running) (hphase : s.ptimer ≠ s.cfg.periodCycles - 1) :
    s.ptimer + 1 < s.cfg.periodCycles := by
  have hlt := hs.phase hrun
  omega

theorem inv_of_stepEffect (h : StepEffect s s') : Inv s' := by
  cases h with
  | resets _ atReset => exact inv_of_atReset atReset
  | stays same _ _ rst cfg =>
    by_cases hreset : s.rst = true
    · exact inv_of_atReset (atReset_of_sameRegisters same (hs.resetHeld hreset))
    · refine inv_of_sameButTimer hs same hs.phase (fun hrun => ?_) (fun h => absurd (rst h) hreset)
      obtain hsame | hrst | hstopped := cfg
      · exact hsame
      · exact absurd hrst hreset
      · exact absurd (hrun.symm.trans hstopped) (by decide)
  | counts running phase same cfg rst =>
    exact inv_of_sameButTimer hs same (fun _ => succ_phase_lt hs running phase) (fun _ => cfg)
      (fun h => absurd (rst.symm.trans h) Bool.false_ne_true)
  | stops p m c hm released _ cause next =>
    subst next
    refine inv_stop hs hm released ?_
    obtain rfl | rfl := cause <;> decide
  | emits p m t hm released running commands next =>
    subst next
    exact inv_emit hs hm released running commands

end Effects

/-! ## Reachable states -/

/-- A start-up releases a state with the invariant, whatever its schedule. -/
theorem inv_of_release {l : Startup} {s : State} (h : release l = some s) : Inv s :=
  inv_of_atReset (release_atReset h)

theorem inv_of_reachable {s : State} (h : Reachable s) : Inv s := by
  induction h with
  | start l s schedule acquired released =>
    obtain ⟨hrun, hcause, hcnt, htrq, hfailc, hptimer, htrace⟩ := release_atReset released
    exact inv_of_atReset ⟨hrun, hcause, hcnt, htrq, hfailc, hptimer, htrace⟩
  | step s s' before next stable ih => exact inv_of_stepEffect ih (step_effect next)

/-- The two configuration clauses of R36, which a stable configuration keeps in Stopped too. -/
structure FitsConfig (s : State) : Prop where
  torque : TorqueIsCommanded s
  phase : s.ptimer < s.cfg.periodCycles

theorem fitsConfig_of_atReset {s : State} (h : AtReset s) : FitsConfig s :=
  ⟨.inl h.trq, h.ptimer ▸ periodCycles_pos s.cfg⟩

theorem FitsConfig.of_same {s s' : State} (hs : FitsConfig s) (htrq : s'.trq = s.trq)
    (hptimer : s'.ptimer ≤ s.ptimer) (hcfg : s'.cfg = s.cfg) : FitsConfig s' where
  torque := by rw [TorqueIsCommanded, htrq, hcfg]; exact hs.torque
  phase := hcfg ▸ hptimer.trans_lt hs.phase

theorem fitsConfig_of_stepEffect {s s' : State} (hinv : Inv s) (hs : FitsConfig s)
    (h : StepEffect s s') (hstable : ConfigStable s s') : FitsConfig s' := by
  cases h with
  | resets _ atReset => exact fitsConfig_of_atReset atReset
  | stays same =>
    obtain hcfg | hreset := hstable
    · exact hs.of_same same.trq same.ptimer.le hcfg
    · exact fitsConfig_of_atReset (atReset_of_sameRegisters same (hinv.resetHeld hreset))
  | counts running phase same cfg =>
    refine ⟨?_, ?_⟩
    · rw [TorqueIsCommanded, same.trq, cfg]
      exact hs.torque
    · rw [same.ptimer, cfg]
      exact succ_phase_lt hinv running phase
  | stops p m c hm _ running _ next =>
    subst next
    refine hs.of_same hm.trq ?_ hm.cfg
    rw [stop_ptimer, hm.ptimer, if_pos running]
    exact Nat.zero_le _
  | emits p m t hm _ running commands next =>
    subst next
    refine ⟨torqueIsCommanded_emit hm hs.torque commands, ?_⟩
    rw [emit_ptimer, emit_cfg, hm.ptimer, if_pos running]
    exact periodCycles_pos m.cfg

theorem fitsConfig_of_reachable {s : State} (h : Reachable s) : FitsConfig s := by
  induction h with
  | start l s schedule acquired released =>
    obtain ⟨htorque, hphase⟩ := fitsConfig_of_atReset (release_atReset released)
    exact ⟨htorque, hphase⟩
  | step s s' before next stable ih =>
    exact fitsConfig_of_stepEffect (inv_of_reachable before) ih (step_effect next) stable

/-! ## The obligations -/

/-- Settles O42, by the five effects of a step. -/
theorem everyStepKeepsTheInvariant : Obligations.EveryStepKeepsTheInvariant :=
  fun _ _ hs h => inv_of_stepEffect hs (step_effect h)

/-- Settles O43: both are at the reset values. -/
theorem resetHasTheInvariant : Obligations.ResetHasTheInvariant :=
  ⟨inv_of_atReset ⟨rfl, rfl, rfl, rfl, rfl, rfl, rfl⟩, fun _ _ h => inv_of_release h⟩

/-- Settles O44: the step invariant, and the two clauses that need the configuration stable. -/
theorem reachableStatesHaveTheListedInvariants :
    Obligations.ReachableStatesHaveTheListedInvariants := by
  intro s h
  have hinv := inv_of_reachable h
  have hfits := fitsConfig_of_reachable h
  exact ⟨Nat.le_of_lt_succ s.cnt.isLt, hinv.causeMatchesRun, hinv.failuresBelowLimit, hfits.torque,
    hfits.phase, hinv.countsFrames⟩

/-- Settles O46: every event of a reachable trace is a sound one. -/
theorem requestFlagIsCoupledToTheTorque : Obligations.RequestFlagIsCoupledToTheTorque := by
  intro s h e he
  obtain ⟨k, hk⟩ := List.mem_iff_getElem?.mp he
  have hsound := (inv_of_reachable h).events k e hk
  exact ⟨hsound.coupled, hsound.producible, hsound.identifier⟩

end Sys2Proof.Proofs.Invariant
end

section
/-! PROOFS. Runs of several steps: what a Stopped block keeps, the period of the reference timer, and
the ticks of a schedule one after the other (spec/41_control_loop.md R151, R157; spec/60_exceptions.md
R176, R192; spec/70_reset_and_hazards.md R221). -/

namespace Sys2Proof.Proofs.Runs

open Sys2Proof Sys2Proof.Machine Sys2Proof.Proofs.Tick Sys2Proof.Proofs.Step
  Sys2Proof.Proofs.Invariant

/-! ## Runs, step by step -/

/-- A run that answers a next state begins with a step that does. -/
theorem runSteps_succ_next {k : Nat} {s s' : State} (h : runSteps (k + 1) s = .next s') :
    ∃ s₁, step s = .next s₁ ∧ runSteps k s₁ = .next s' := by
  cases hstep : step s with
  | next s₁ => exact ⟨s₁, rfl, (runSteps_next hstep).symm.trans h⟩
  | fault r => cases r
  | refused r => rw [runSteps_refused hstep] at h; cases h

theorem runSteps_one (s : State) : runSteps 1 s = step s := by
  unfold runSteps
  cases step s <;> rfl

/-- A run may also be extended at its end. -/
theorem runSteps_succ_last {k : Nat} {s s₁ : State} (h : runSteps k s = .next s₁) :
    runSteps (k + 1) s = step s₁ := by
  induction k generalizing s with
  | zero =>
    obtain rfl : s = s₁ := Host.Outcome.next.inj h
    exact runSteps_one s
  | succ k ih =>
    obtain ⟨s₂, hstep, hrest⟩ := runSteps_succ_next h
    rw [runSteps_next hstep]
    exact ih hrest

/-- A step takes the head off the schedule. -/
theorem step_pending {s s' : State} (h : step s = .next s') : s'.pending = s.pending.tail := by
  obtain ⟨x, r, hnext, hcases⟩ := step_cases h
  obtain ⟨k, rfl⟩ := nextStimulus_rest hnext
  obtain ⟨p, -, -, rfl⟩ | ⟨p, -, -, hexec⟩ | ⟨p, -, -, -, -, rfl⟩ | ⟨p, -, -, -, rfl⟩ |
    ⟨c, -, -, rfl⟩ | ⟨f, -, -, rfl⟩ := hcases
  case inr.inl =>
    obtain ⟨s₁, hexec', hop⟩ := exec_intentWord_cases p.iw _
    obtain rfl := Host.Outcome.next.inj (hexec'.symm.trans hexec)
    obtain ⟨-, rfl⟩ | ⟨-, -, rfl⟩ | ⟨-, -, -, rfl⟩ | ⟨-, -, -, t, -, rfl⟩ := hop
    all_goals simp [sampled]
  all_goals rfl

/-! ## Stopped -/

theorem sameRegisters_refl (s : State) : SameRegisters s s := ⟨rfl, rfl, rfl, rfl, rfl, rfl, rfl⟩

theorem sameRegisters_trans {a b c : State} (h : SameRegisters a b) (h' : SameRegisters b c) :
    SameRegisters a c where
  run := h'.run.trans h.run
  cause := h'.cause.trans h.cause
  cnt := h'.cnt.trans h.cnt
  trq := h'.trq.trans h.trq
  failc := h'.failc.trans h.failc
  ptimer := h'.ptimer.trans h.ptimer
  trace := h'.trace.trans h.trace

/-- In Stopped a scheduled event that does not assert reset moves no register. -/
theorem step_stopped_of_pending {s s' : State} {x : Stimulus} {rest : List Stimulus}
    (hp : s.pending = x :: rest) (hx : assertsReset x = false) (hrun : s.run = .stopped)
    (h : step s = .next s') : SameRegisters s s' := by
  cases step_effect h with
  | resets asserted =>
    rw [nextStimulus_of_pending hp, hx] at asserted
    cases asserted
  | stays same => exact same
  | counts running => exact absurd (running.symm.trans hrun) (by decide)
  | stops _ _ _ _ _ running => exact absurd (running.symm.trans hrun) (by decide)
  | emits _ _ _ _ _ running => exact absurd (running.symm.trans hrun) (by decide)

/-- Settles O47, by induction on the number of steps. -/
theorem stoppedIsTerminal : Obligations.StoppedIsTerminal := by
  intro n
  induction n with
  | zero =>
    intro s s' _ _ _ h
    exact Host.Outcome.next.inj h ▸ sameRegisters_refl s
  | succ n ih =>
    intro s s' hrun hlen hxs h
    obtain ⟨s₁, hstep, hrest⟩ := runSteps_succ_next h
    obtain ⟨x, rest, hp⟩ := List.exists_cons_of_length_pos (Nat.zero_lt_of_lt hlen)
    have hpending : s₁.pending = rest := by rw [step_pending hstep, hp]; rfl
    rw [hp] at hxs hlen
    obtain ⟨hx, hxs⟩ := List.forall_mem_cons.mp hxs
    have hsame := step_stopped_of_pending hp hx hrun hstep
    refine sameRegisters_trans hsame (ih s₁ s' (hsame.run.trans hrun) ?_ ?_ hrest)
    · rw [hpending]
      exact Nat.le_of_succ_le_succ hlen
    · rwa [hpending]

/-! ## One period of the reference timer -/

/-- `n` clock edges of a Running block before the last cycle of its period: only the timer moved. -/
structure CountsEdges (n : Nat) (rest : List Stimulus) (s s' : State) : Prop where
  same : SameRegisters { s with ptimer := s.ptimer + n } s'
  cfg : s'.cfg = s.cfg
  freeStep : s'.freeStep = s.freeStep
  pending : s'.pending = rest

/-- Edges that stay below the period only count. -/
theorem runSteps_edges {ps : List InPorts} {rest : List Stimulus} {s : State}
    (hrun : s.run = .running) (hps : ∀ p ∈ ps, p.rst = false)
    (hp : s.pending = ps.map Stimulus.edge ++ rest) (hlen : s.ptimer + ps.length < s.cfg.periodCycles) :
    ∃ s', runSteps ps.length s = .next s' ∧ CountsEdges ps.length rest s s' := by
  induction ps generalizing s with
  | nil => exact ⟨s, rfl, ⟨⟨rfl, rfl, rfl, rfl, rfl, rfl, rfl⟩, rfl, rfl, hp⟩⟩
  | cons p ps ih =>
    obtain ⟨hrst, hps⟩ := List.forall_mem_cons.mp hps
    rw [List.length_cons] at hlen
    have hstep := step_edge_counts hp hrst hrun (by omega)
    obtain ⟨s', hrest, hsame, hcfg, hfree, hpending⟩ := ih
      (s := { present p (lowerStrobes { s with pending := ps.map Stimulus.edge ++ rest }) with
        ptimer := s.ptimer + 1 }) hrun hps rfl
      (show s.ptimer + 1 + ps.length < s.cfg.periodCycles by omega)
    refine ⟨s', (runSteps_next hstep).trans hrest, ⟨?_, hcfg, hfree, hpending⟩⟩
    obtain ⟨hrun', hcause, hcnt, htrq, hfailc, hptimer, htrace⟩ := hsame
    refine ⟨hrun', hcause, hcnt, htrq, hfailc, hptimer.trans ?_, htrace⟩
    show s.ptimer + 1 + ps.length = s.ptimer + (p :: ps).length
    rw [List.length_cons]
    omega

/-- The step of a tick does not see how far the timer of a Running block had counted. -/
theorem step_tick_of_countsEdges {n : Nat} {p : InPorts} {rest rest' : List Stimulus} {s s' : State}
    (hrst : p.rst = false) (hrun : s.run = .running) (h : CountsEdges n rest' s s') :
    step { s' with pending := .tick p :: rest } = step { s with pending := .tick p :: rest } := by
  obtain ⟨⟨hrun', hcause, hcnt, htrq, hfailc, -, htrace⟩, hcfg, hfree, -⟩ := h
  rw [step_tick rfl hrst, step_tick rfl hrst, sampled_lowerStrobes_eq, sampled_lowerStrobes_eq]
  simp only [hrun', hcause, hcnt, htrq, hfailc, htrace, hcfg, hfree, hrun, if_true]

/-- Settles O41: the edges before the last only count, and the last is the tick. -/
theorem ticksAreOnePeriodApart : Obligations.TicksAreOnePeriodApart := by
  intro s ps rest hrun hzero hps hp
  refine ⟨fun hlen => ?_, fun hlen => ?_⟩
  · obtain ⟨s', hsteps, hsame, -⟩ := runSteps_edges hrun hps hp (by omega)
    obtain ⟨hrun', hcause, hcnt, htrq, hfailc, hptimer, htrace⟩ := hsame
    refine ⟨s', hsteps, ?_, hrun'.trans hrun, hcause, hcnt, htrq, hfailc, htrace⟩
    rw [hptimer, hzero, Nat.zero_add]
  · have hpos := periodCycles_pos s.cfg
    obtain rfl | ⟨init, p, rfl⟩ := List.eq_nil_or_concat' ps
    · rw [List.length_nil] at hlen
      omega
    · rw [List.length_append, List.length_singleton] at hlen ⊢
      rw [List.map_append, List.append_assoc] at hp
      have hrst : p.rst = false := hps p (by simp)
      obtain ⟨s', hsteps, hcounts⟩ := runSteps_edges hrun
        (fun q hq => hps q (List.mem_append_left _ hq)) hp (by omega)
      have hptimer : s'.ptimer = s.ptimer + init.length := hcounts.same.ptimer
      have hlast : s'.ptimer = s'.cfg.periodCycles - 1 := by
        rw [hptimer, hcounts.cfg]
        omega
      refine ⟨p, List.getLast?_concat, ?_⟩
      rw [runSteps_succ_last hsteps, step_edge_last hcounts.pending hrst
        (hcounts.same.run.trans hrun) hlast]
      exact step_tick_of_countsEdges hrst hrun hcounts

/-! ## Kinds of ticks -/

theorem quietPorts_iff {p : InPorts} : quietPorts p = true ↔ p.rst = false ∧ p.inErr = false := by
  simp [quietPorts]

/-- An idle tick is an open one without VALID. -/
theorem idleTick_tick {x : Stimulus} (h : idleTick x = true) :
    ∃ p, x = .tick p ∧ p.rst = false ∧ p.inErr = false ∧ p.iw.getLsbD 3 = false := by
  cases x with
  | tick p =>
    obtain ⟨hquiet, hiw⟩ := Bool.and_eq_true_iff.mp h
    obtain ⟨hrst, herr⟩ := quietPorts_iff.mp hquiet
    exact ⟨p, rfl, hrst, herr, by simpa using hiw⟩
  | _ => cases h

/-- A reserved tick is an open one with a neutral word. -/
theorem reservedTick_tick {x : Stimulus} (h : reservedTick x = true) :
    ∃ p, x = .tick p ∧ p.rst = false ∧ p.inErr = false ∧ neutralWord p.iw = true := by
  cases x with
  | tick p =>
    obtain ⟨hvalid, hcode⟩ := Bool.and_eq_true_iff.mp h
    obtain ⟨hquiet, hbit⟩ := Bool.and_eq_true_iff.mp hvalid
    obtain ⟨hrst, herr⟩ := quietPorts_iff.mp hquiet
    exact ⟨p, rfl, hrst, herr, by rw [neutralWord, hbit, hcode]; rfl⟩
  | _ => cases h

/-- A failing tick is an open one with a word that emits and the answer Err. -/
theorem failingTick_tick {x : Stimulus} (h : failingTick x = true) :
    ∃ p, x = .tick p ∧ p.rst = false ∧ p.inErr = false ∧ p.txErr = true ∧ p.iw ≠ quitWord := by
  cases x with
  | tick p =>
    obtain ⟨hfail, hiw⟩ := Bool.and_eq_true_iff.mp h
    obtain ⟨hquiet, htx⟩ := Bool.and_eq_true_iff.mp hfail
    obtain ⟨hrst, herr⟩ := quietPorts_iff.mp hquiet
    exact ⟨p, rfl, hrst, herr, htx, of_decide_eq_true hiw⟩
  | _ => cases h

theorem answersOk_tick {p : InPorts} (h : answersOk (.tick p) = true) : p.txErr = false := by
  simpa [answersOk] using h

/-- An emission answered Ok leaves the block as it ran. -/
theorem emit_run_of_ok {p : InPorts} {s m : State} (hm : SampledFrom p s m) (t : Torque)
    (hok : p.txErr = false) : (emit t m).run = s.run := by
  rw [emit_run, if_neg, hm.run]
  rintro ⟨hfail, -⟩
  rw [hm.txErr, hok] at hfail
  cases hfail

/-! ## The frames of a run -/

/-- From `s` to `s'` the frames `es` were sent, each of torque `t`, with the counters that follow. -/
structure EmitsOnly (t : Torque) (s s' : State) (es : List SendEvent) : Prop where
  trace : s'.trace = s.trace ++ es
  frames : ∀ (k : Nat) (e : SendEvent), es[k]? = some e →
    FrameFields t.toInt (s.cnt.toNat + k) (decide (t ≠ 0#16)) e.frame

/-- A frame carries its counter modulo 16 only. -/
theorem frameFields_congr_counter {t : Int} {c c' : Nat} {r : Bool} {f : Frame}
    (h : FrameFields t c r f) (hc : c % 16 = c' % 16) : FrameFields t c' r f := by
  rwa [FrameFields, ← hc]

theorem emitsOnly_nil (t : Torque) (s : State) : EmitsOnly t s s [] :=
  ⟨(List.append_nil _).symm, fun _ _ h => by simp at h⟩

/-- An emission before the frames of a run. -/
theorem emitsOnly_cons {p : InPorts} {t : Torque} {s m s' : State} {es : List SendEvent}
    (hm : SampledFrom p s m) (h : EmitsOnly t (emit t m) s' es) : ∃ e, EmitsOnly t s s' (e :: es) := by
  obtain ⟨f, hfields, -, htrace⟩ := hm.emit_frame t
  refine ⟨_, by rw [h.trace, htrace, List.append_assoc]; rfl, fun k e hk => ?_⟩
  cases k with
  | zero =>
    obtain rfl := Option.some.inj hk
    exact hfields
  | succ k =>
    refine frameFields_congr_counter (h.frames k e hk) ?_
    rw [(emit_emits t m).cnt, hm.cnt]
    omega

/-- A step that moves no register before the frames of a run. -/
theorem emitsOnly_of_sameRegisters {t : Torque} {s m s' : State} {es : List SendEvent}
    (hm : SameRegisters s m) (h : EmitsOnly t m s' es) : EmitsOnly t s s' es :=
  ⟨hm.trace ▸ h.trace, hm.cnt ▸ h.frames⟩

/-- The frames after the ones sent before the run. -/
theorem EmitsOnly.frame_after {t : Torque} {s s' : State} {es : List SendEvent}
    (h : EmitsOnly t s s' es) {k : Nat} {e : SendEvent} (hk : s'.trace[s.trace.length + k]? = some e) :
    FrameFields t.toInt (s.cnt.toNat + k) (decide (t ≠ 0#16)) e.frame := by
  rw [h.trace, List.getElem?_append_right (Nat.le_add_right _ _), Nat.add_sub_cancel_left] at hk
  exact h.frames k e hk

theorem EmitsOnly.trace_length {t : Torque} {s s' : State} {es : List SendEvent}
    (h : EmitsOnly t s s' es) : s'.trace.length = s.trace.length + es.length := by
  rw [h.trace, List.length_append]

/-! ## Idle and reserved ticks from reset -/

/-- While `trq` is 0 an idle or a reserved tick emits torque 0 under both hold policies. -/
theorem safeTick_maps_to_zero {x : Stimulus} (h : idleTick x = true ∨ reservedTick x = true) :
    ∃ p, x = .tick p ∧ p.rst = false ∧ p.inErr = false ∧
      ∀ s : State, s.trq = 0#16 → mapIntent p.iw s.trq s.cfg = .torque 0#16 := by
  obtain hidle | hreserved := h
  · obtain ⟨p, rfl, hrst, herr, hiw⟩ := idleTick_tick hidle
    refine ⟨p, rfl, hrst, herr, fun s hs => ?_⟩
    rw [mapIntent_idle s hiw, idleTorque, hs]
    cases s.cfg.holdPolicy <;> rfl
  · obtain ⟨p, rfl, hrst, herr, hiw⟩ := reservedTick_tick hreserved
    exact ⟨p, rfl, hrst, herr, fun s _ => mapIntent_neutralWord _ _ hiw⟩

/-- Safe ticks of a block whose torque is 0: every frame is one of torque 0, and where every answer is
Ok there is one for each tick. -/
theorem runSteps_safeTicks {xs : List Stimulus} {s : State} (hp : s.pending = xs)
    (hxs : ∀ x ∈ xs, idleTick x = true ∨ reservedTick x = true) (htrq : s.trq = 0#16) :
    ∃ s' es, runSteps xs.length s = .next s' ∧ s'.trq = 0#16 ∧ EmitsOnly 0#16 s s' es ∧
      (s.run = .running → (∀ x ∈ xs, answersOk x = true) →
        es.length = xs.length ∧ s'.run = .running) := by
  induction xs generalizing s with
  | nil => exact ⟨s, [], rfl, htrq, emitsOnly_nil _ s, fun hrun _ => ⟨rfl, hrun⟩⟩
  | cons x xs ih =>
    obtain ⟨hx, htail⟩ := List.forall_mem_cons.mp hxs
    obtain ⟨p, rfl, hrst, herr, hzero⟩ := safeTick_maps_to_zero hx
    cases hrun : s.run with
    | stopped =>
      obtain ⟨m, hm, hpending, hstep⟩ := step_tick_stopped hp hrst hrun
      obtain ⟨s', es, hsteps, htrq', hemits, -⟩ := ih hpending htail (hm.trq.trans htrq)
      exact ⟨s', es, (runSteps_next hstep).trans hsteps, htrq',
        emitsOnly_of_sameRegisters (hm.sameRegisters hrun) hemits, fun h => by cases h⟩
    | running =>
      obtain ⟨m, hm, hpending, hstep⟩ := step_tick_open hp hrst hrun herr
      rw [hzero s htrq] at hstep
      obtain ⟨s', es, hsteps, htrq', hemits, hok⟩ := ih (s := emit 0#16 m)
        ((emit_pending _ m).trans hpending) htail (emit_trq _ m)
      obtain ⟨e, hemits'⟩ := emitsOnly_cons hm hemits
      refine ⟨s', e :: es, (runSteps_next hstep).trans hsteps, htrq', hemits', fun _ hanswers => ?_⟩
      obtain ⟨hanswer, hanswers⟩ := List.forall_mem_cons.mp hanswers
      obtain ⟨hlen, hrun'⟩ := hok ((emit_run_of_ok hm _ (answersOk_tick hanswer)).trans hrun) hanswers
      exact ⟨congrArg (· + 1) hlen, hrun'⟩

/-- Settles O48: a start-up begins with torque 0, counter 0 and an empty trace. -/
theorem idleRunsEmitOnlySafeFrames : Obligations.IdleRunsEmitOnlySafeFrames := by
  intro l s xs hrelease hxs
  have hreset := RollingCounter.release_atReset hrelease
  obtain ⟨s', es, hsteps, htrq, hemits, hok⟩ :=
    runSteps_safeTicks (s := { s with pending := xs }) rfl hxs hreset.trq
  have htrace : ({ s with pending := xs } : State).trace = [] := hreset.trace
  have hcnt : ({ s with pending := xs } : State).cnt.toNat = 0 := congrArg BitVec.toNat hreset.cnt
  refine ⟨s', hsteps, htrq, fun k e hk => ?_, fun hanswers => ?_⟩
  · have hfields := hemits.frames k e (by rwa [hemits.trace, htrace] at hk)
    rw [hcnt, Nat.zero_add] at hfields
    exact hfields
  · obtain ⟨hlen, hrun⟩ := hok hreset.run hanswers
    rw [hemits.trace_length, htrace, hlen, List.length_nil, Nat.zero_add]
    exact ⟨rfl, hrun⟩

/-! ## Idle ticks answered Ok -/

/-- What an idle tick emits it emits again: the torque is latched, or 0 both times. -/
theorem idleTorque_emit_idleTorque {p : InPorts} {s m : State} (hm : SampledFrom p s m) :
    idleTorque (emit (idleTorque s) m) = idleTorque s := by
  unfold idleTorque
  rw [emit_cfg, hm.cfg, emit_trq]
  cases s.cfg.holdPolicy <;> rfl

/-- Idle ticks answered Ok: one frame a tick, each of the idle torque of the first. -/
theorem runSteps_idleTicks {xs : List Stimulus} {s : State} (hp : s.pending = xs)
    (hrun : s.run = .running) (hxs : ∀ x ∈ xs, idleTick x = true ∧ answersOk x = true) :
    ∃ s' es, runSteps xs.length s = .next s' ∧ s'.run = .running ∧ es.length = xs.length ∧
      EmitsOnly (idleTorque s) s s' es ∧ s'.trq = if xs = [] then s.trq else idleTorque s := by
  induction xs generalizing s with
  | nil => exact ⟨s, [], rfl, hrun, rfl, emitsOnly_nil _ s, rfl⟩
  | cons x xs ih =>
    obtain ⟨⟨hidle, hok⟩, htail⟩ := List.forall_mem_cons.mp hxs
    obtain ⟨p, rfl, hrst, herr, hiw⟩ := idleTick_tick hidle
    obtain ⟨m, hm, hpending, hstep⟩ := step_tick_open hp hrst hrun herr
    rw [mapIntent_idle s hiw] at hstep
    obtain ⟨s', es, hsteps, hrun', hlen, hemits, htrq⟩ := ih (s := emit (idleTorque s) m)
      ((emit_pending _ m).trans hpending) ((emit_run_of_ok hm _ (answersOk_tick hok)).trans hrun)
      htail
    rw [idleTorque_emit_idleTorque hm] at hemits htrq
    obtain ⟨e, hemits'⟩ := emitsOnly_cons hm hemits
    refine ⟨s', e :: es, (runSteps_next hstep).trans hsteps, hrun', congrArg (· + 1) hlen, hemits', ?_⟩
    rw [htrq, emit_trq, ite_self, if_neg (List.cons_ne_nil _ _)]

/-- Settles O49: the idle torque is the torque held under one policy and 0 under the other. -/
theorem latchedTorqueHasNoTimeOut : Obligations.LatchedTorqueHasNoTimeOut := by
  intro s xs hrun hxs
  obtain ⟨s', es, hsteps, hrun', hlen, hemits, htrq⟩ :=
    runSteps_idleTicks (s := { s with pending := xs }) rfl hrun hxs
  refine ⟨s', hsteps, hrun', hlen ▸ hemits.trace_length, fun hlatch => ?_, fun hneutral => ?_⟩
  · have hidle : idleTorque { s with pending := xs } = s.trq := ControlLoop.idleTorque_latch hlatch
    rw [hidle] at hemits htrq
    exact ⟨htrq.trans (ite_self _), fun k e hk => hemits.frame_after hk⟩
  · have hidle : idleTorque { s with pending := xs } = 0#16 := ControlLoop.idleTorque_neutral hneutral
    rw [hidle] at hemits htrq
    exact ⟨fun hne => htrq.trans (if_neg hne), fun k e hk => hemits.frame_after hk⟩

/-! ## Failing ticks -/

/-- Failing ticks up to the limit: each is one frame and one failure more, and the one that reaches the
limit stops the block. -/
theorem runSteps_failingTicks {xs : List Stimulus} {s : State} (hp : s.pending = xs)
    (hrun : s.run = .running) (hbelow : s.failc < s.cfg.txFailLimit)
    (hxs : ∀ x ∈ xs, failingTick x = true) (hlimit : s.failc + xs.length ≤ s.cfg.txFailLimit) :
    ∃ s', runSteps xs.length s = .next s' ∧ s'.failc = s.failc + xs.length ∧
      s'.trace.length = s.trace.length + xs.length ∧
      (s.failc + xs.length < s.cfg.txFailLimit → s'.run = .running) ∧
      (s.failc + xs.length = s.cfg.txFailLimit → s'.run = .stopped ∧ s'.cause = .txFatal) := by
  induction xs generalizing s with
  | nil => exact ⟨s, rfl, rfl, rfl, fun _ => hrun, fun h => absurd h hbelow.ne⟩
  | cons x xs ih =>
    obtain ⟨hx, htail⟩ := List.forall_mem_cons.mp hxs
    obtain ⟨p, rfl, hrst, herr, hfail, hiw⟩ := failingTick_tick hx
    obtain ⟨t, ht⟩ := mapIntent_torque s hiw
    obtain ⟨m, hm, hpending, hstep⟩ := step_tick_open hp hrst hrun herr
    rw [ht] at hstep
    have hanswer : m.txErr = true := hm.txErr.trans hfail
    have hfailc : (emit t m).failc = s.failc + 1 := by rw [emit_failc, if_pos hanswer, hm.failc]
    have hcfg : (emit t m).cfg = s.cfg := (emit_cfg t m).trans hm.cfg
    have htrace : (emit t m).trace.length = s.trace.length + 1 := by
      rw [emit_trace, List.length_append, hm.trace, List.length_singleton]
    rw [List.length_cons] at hlimit ⊢
    by_cases hlast : s.cfg.txFailLimit ≤ s.failc + 1
    · obtain rfl : xs = [] := List.length_eq_zero_iff.mp (by omega)
      have hstops : m.txErr = true ∧ m.cfg.txFailLimit ≤ m.failc + 1 := by
        rw [hm.cfg, hm.failc]
        exact ⟨hanswer, hlast⟩
      refine ⟨emit t m, (runSteps_one s).trans hstep, hfailc, htrace, fun h => ?_, fun _ => ?_⟩
      · exact absurd (hlast.trans_lt h) (lt_irrefl _)
      · rw [emit_run, emit_cause, if_pos hstops, if_pos hstops]
        exact ⟨rfl, rfl⟩
    · have hrun' : (emit t m).run = .running := by
        rw [emit_run, if_neg, hm.run, hrun]
        rintro ⟨-, hle⟩
        rw [hm.cfg, hm.failc] at hle
        exact hlast hle
      obtain ⟨s', hsteps, hcount, hlen, hstill, hends⟩ := ih (s := emit t m)
        ((emit_pending t m).trans hpending) hrun' (by rw [hfailc, hcfg]; omega) htail
        (by rw [hfailc, hcfg]; omega)
      rw [hfailc, hcfg, Nat.add_right_comm] at hstill hends
      refine ⟨s', (runSteps_next hstep).trans hsteps, ?_, ?_, hstill, hends⟩
      · rw [hcount, hfailc, Nat.add_right_comm, Nat.add_assoc]
      · rw [hlen, htrace, Nat.add_right_comm, Nat.add_assoc]

/-- Settles O50: the run of failing ticks from a count of 0. -/
theorem consecutiveFailuresEscalate : Obligations.ConsecutiveFailuresEscalate := by
  intro s xs hrun hzero hxs hlimit
  have hpos := txFailLimit_pos s.cfg
  obtain ⟨s', hsteps, hfailc, hlen, hstill, hends⟩ :=
    runSteps_failingTicks (s := { s with pending := xs }) rfl hrun (hzero ▸ hpos) hxs
      (by simpa only [hzero, Nat.zero_add] using hlimit)
  simp only [hzero, Nat.zero_add] at hfailc hstill hends
  exact ⟨s', hsteps, hfailc, hlen, hstill, hends⟩

/-! ## Ignored bits -/

/-- What is left of a state without the schedule and the sampled word. -/
def forgetWord (s : State) : State := { s with pending := [], iw := 0#4 }

theorem same_of_forgetWord_eq {a b : State} (h : forgetWord a = forgetWord b) :
    SameRegisters a b ∧ b.tx = a.tx ∧ b.cfg = a.cfg := by
  simp only [forgetWord, State.mk.injEq] at h
  obtain ⟨hrun, hcause, hcnt, htrq, hfailc, hptimer, hcfg, -, -, -, -, htx, -, htrace, -, -⟩ := h
  exact ⟨⟨hrun.symm, hcause.symm, hcnt.symm, htrq.symm, hfailc.symm, hptimer.symm, htrace.symm⟩,
    htx.symm, hcfg.symm⟩

/-- Inputs without their word. -/
def blankWord (p : InPorts) : InPorts := { p with iw := 0#4 }

theorem forgetWord_emit (t : Torque) (s : State) : forgetWord (emit t s) = emit t (forgetWord s) := by
  unfold emit countAnswer
  cases htx : s.txErr with
  | false => simp [txAnswer, forgetWord, send, driveEncoder, htx]
  | true =>
    by_cases hlimit : s.cfg.txFailLimit ≤ s.failc + 1
    · simp [txAnswer, forgetWord, send, driveEncoder, raise, stop, htx, hlimit]
    · simp [txAnswer, forgetWord, send, driveEncoder, htx, hlimit]

theorem forgetWord_obey (r : MapResult) (s : State) : forgetWord (obey r s) = obey r (forgetWord s) := by
  cases r with
  | quit => rfl
  | torque t => exact forgetWord_emit t s

/-- Behind the gate neither the schedule nor the sampled word is read. -/
theorem forgetWord_tickGate (r : MapResult) (s : State) :
    forgetWord (tickGate (obey r) s) = tickGate (obey r) (forgetWord s) := by
  cases hrun : s.run with
  | stopped =>
    have hrun' : (forgetWord s).run = .stopped := hrun
    rw [tickGate_stopped _ hrun, tickGate_stopped _ hrun']
  | running =>
    have hrun' : (forgetWord s).run = .running := hrun
    cases herr : s.inErr with
    | true =>
      have herr' : (forgetWord s).inErr = true := herr
      rw [tickGate_inErr _ hrun herr, tickGate_inErr _ hrun' herr']
      rfl
    | false =>
      have herr' : (forgetWord s).inErr = false := herr
      rw [tickGate_open _ hrun herr, tickGate_open _ hrun' herr', forgetWord_obey]

/-- The sampled state without its word is sampled from inputs without theirs. -/
theorem forgetWord_sampled (p : InPorts) (s : State) (rest : List Stimulus) :
    forgetWord (sampled p (lowerStrobes { s with pending := rest })) =
      sampled (blankWord p) (lowerStrobes (forgetWord s)) := by
  rw [sampled_lowerStrobes_eq, sampled_lowerStrobes_eq]
  rfl

/-- The mapper answers the same to two words that differ in ignored bits only. -/
theorem mapIntent_congr {p q : InPorts} (h : SameButIgnoredBits p q) (s : State) :
    mapIntent p.iw s.trq s.cfg = mapIntent q.iw s.trq s.cfg := by
  obtain ⟨-, -, -, hsame | ⟨hp, hq⟩ | ⟨hp, hq⟩⟩ := h
  · rw [hsame]
  · rw [mapIntent_idle s hp, mapIntent_idle s hq]
  · rw [mapIntent_neutralWord _ _ hp, mapIntent_neutralWord _ _ hq]

theorem blankWord_congr {p q : InPorts} (h : SameButIgnoredBits p q) : blankWord p = blankWord q := by
  obtain ⟨hrst, herr, htx, -⟩ := h
  rw [blankWord, blankWord, hrst, herr, htx]

/-- The step of a tick, without the word it sampled. -/
theorem forgetWord_step_tick {p : InPorts} {s s' : State} {rest : List Stimulus}
    (hp : s.pending = .tick p :: rest) (h : step s = .next s') :
    forgetWord s' =
      if p.rst then doReset (present (blankWord p) (lowerStrobes (forgetWord s)))
      else tickGate (obey (mapIntent p.iw s.trq s.cfg))
        (sampled (blankWord p) (lowerStrobes (forgetWord s))) := by
  cases hrst : p.rst with
  | true =>
    obtain rfl := Host.Outcome.next.inj ((step_tick_reset hp hrst).symm.trans h)
    rfl
  | false =>
    have hm := sampledFrom_sampled p s rest s.freeStep
    rw [step_tick hp hrst, exec_intentWord_eq, hm.trq, hm.cfg] at h
    obtain rfl := Host.Outcome.next.inj h
    rw [forgetWord_tickGate, forgetWord_sampled]
    rfl

/-- Two ticks that differ in ignored bits, from states that differ in the word sampled before. -/
theorem forgetWord_step_congr {p q : InPorts} {a b a' b' : State} {ps qs : List Stimulus}
    (h : SameButIgnoredBits p q) (hab : forgetWord a = forgetWord b)
    (ha : a.pending = .tick p :: ps) (hb : b.pending = .tick q :: qs)
    (hstepa : step a = .next a') (hstepb : step b = .next b') : forgetWord a' = forgetWord b' := by
  obtain ⟨hsame, -, hcfg⟩ := same_of_forgetWord_eq hab
  have hrst : p.rst = q.rst := h.left
  rw [forgetWord_step_tick ha hstepa, forgetWord_step_tick hb hstepb, hab, blankWord_congr h,
    hsame.trq, hcfg, mapIntent_congr h a, hrst]

/-- Two runs of such ticks. -/
theorem runSteps_sameButIgnoredBits {ps qs : List InPorts} {s t a b : State}
    (hps : List.Forall₂ SameButIgnoredBits ps qs) (hst : forgetWord s = forgetWord t)
    (hs : s.pending = ps.map Stimulus.tick) (ht : t.pending = qs.map Stimulus.tick)
    (ha : runSteps ps.length s = .next a) (hb : runSteps qs.length t = .next b) :
    forgetWord a = forgetWord b := by
  induction hps generalizing s t with
  | nil =>
    obtain rfl : s = a := Host.Outcome.next.inj ha
    obtain rfl : t = b := Host.Outcome.next.inj hb
    exact hst
  | cons hpq _ ih =>
    obtain ⟨s₁, hstepa, hresta⟩ := runSteps_succ_next ha
    obtain ⟨t₁, hstepb, hrestb⟩ := runSteps_succ_next hb
    refine ih (forgetWord_step_congr hpq hst hs ht hstepa hstepb) ?_ ?_ hresta hrestb
    · rw [step_pending hstepa, hs]
      rfl
    · rw [step_pending hstepb, ht]
      rfl

/-- Settles O51: without the last word the two runs end in one state. -/
theorem ignoredIntentBitsNeverMatter : Obligations.IgnoredIntentBitsNeverMatter := by
  intro ps qs s a b hps ha hb
  obtain ⟨hsame, htx, -⟩ := same_of_forgetWord_eq
    (runSteps_sameButIgnoredBits (s := { s with pending := ps.map Stimulus.tick })
      (t := { s with pending := qs.map Stimulus.tick }) hps rfl rfl rfl ha hb)
  exact ⟨hsame, htx.symm⟩

end Sys2Proof.Proofs.Runs
end
